-- ==== Sys2Proof/Word.lean ====
section
/-! DEFINITION. The word types of the part: bytes, 24-bit positions, 32-bit counts, and big-endian fields. -/

namespace Sys2Proof

/-- One byte of a frame (R186). -/
abbrev Byte := BitVec 8

/-- A value of a section's position counter, counted modulo 2^24 (R24). -/
abbrev Pos := BitVec 24

/-- A 32-bit count that wraps (R184, R29, R64, R101, R171, R188, R189). -/
abbrev Count := BitVec 32

/-- The low byte of a number. -/
abbrev toByte (n : Nat) : Byte := BitVec.ofNat 8 n

/-- A flag as a byte, 0 for no and 1 for yes (R201). -/
abbrev flagByte (b : Bool) : Byte := if b then 1 else 0

/-- Two bytes, high byte first (R201). -/
abbrev be16 (n : Nat) : List Byte := [toByte (n / 256), toByte n]

/-- Three bytes, high byte first (R201). -/
abbrev be24 (n : Nat) : List Byte := [toByte (n / 65536), toByte (n / 256), toByte n]

/-- Four bytes, high byte first (R201). -/
abbrev be32 (n : Nat) : List Byte :=
  [toByte (n / 16777216), toByte (n / 65536), toByte (n / 256), toByte n]

/-- A signed value in two bytes, two's complement, high byte first (R201). -/
abbrev beInt16 (i : Int) : List Byte := be16 (BitVec.ofInt 16 i).toNat

/-- A signed value in four bytes, two's complement, high byte first (R201). -/
abbrev beInt32 (i : Int) : List Byte := be32 (BitVec.ofInt 32 i).toNat

end Sys2Proof
end

