-- ==== Sys2Proof/Syntax.lean ====
section
/-! DEFINITION. The commands of the part: one constructor of `Instr` for each row of spec/opcode_table.json. -/

namespace Sys2Proof

/-- The four conveyor sections, each with its own unit (R22). -/
inductive Sec where
  | s1 | s2 | s3 | s4
deriving DecidableEq, Repr

/-- The place of a section in a vector of four. -/
abbrev Sec.idx : Sec → Fin 4
  | .s1 => 0 | .s2 => 1 | .s3 => 2 | .s4 => 3

/-- The number of a section as requests and reports carry it, 1 to 4. -/
abbrev Sec.num : Sec → Nat
  | .s1 => 1 | .s2 => 2 | .s3 => 3 | .s4 => 4

/-- The two phases of an encoder (R22). -/
inductive Phase where
  | a | b
deriving DecidableEq, Repr

/-- The three serial links (R186). -/
inductive Link where
  | host | scan | printer
deriving DecidableEq, Repr

/-- The levels of the input pins (00 section 6): encoder phases A and B of E1 to E4, eyes G, T, M, K
(yes for blocked), the twelve pocket-clear inputs, READY and STOP, and the straps RATE1, RATE0. -/
structure InputPins where
  phaseA : Vector Bool 4
  phaseB : Vector Bool 4
  eyes   : Vector Bool 4
  clears : Vector Bool 12
  ready  : Bool
  stop   : Bool
  rate   : BitVec 2
deriving DecidableEq, Repr

/-- A byte as it arrives on a link; it is in error when its stop bit is found low (R186). -/
inductive LineByte where
  | good (b : Byte)
  | error
deriving DecidableEq, Repr

/-- The bytes that arrive on a link before a gap (R187). -/
structure Burst where
  link  : Link
  bytes : List LineByte
deriving DecidableEq, Repr

/-- What happens at a pocket-clear input (R149). -/
inductive ClearEvent where
  /-- The raw input takes a level. -/
  | takes (active : Bool)
  /-- The raw input has held a level other than the filtered one for 10 ms. -/
  | held
deriving DecidableEq, Repr

/-- The commands. The operands of a request row are the id byte and the payload bytes of its frame
(R190, 12.6); of a TEST_OUTPUT row, the payload bytes after the form byte. FRAME_ERROR and LINK_GAP_TIMEOUT carry the bytes that
arrive on the link in the event, one after another, and before the gap (log 23). -/
inductive Instr where
  | powerOnReset (found : InputPins)
  | softReset
  | rawCount (sec : Sec) (phase : Phase)
  | eyeInputChange (sec : Sec) (blocked : Bool)
  | scanStartSent
  | scanFrameReceived (kind id : Byte) (payload : List Byte)
  | defects
  | scanEnd
  | profile
  | solveComplete
  | pulseWidthExpiry (line : Fin 24)
  | pullInExpiry (line : Fin 24)
  | chopPeriod (line : Fin 24)
  | deadTimeExpiry (pair : Fin 6)
  | sawRecoveryExpiry
  | clearEdge (pocket : Fin 12) (event : ClearEvent)
  | paceInterval
  | labelTransmissionComplete
  | ack (serial : BitVec 32)
  | nak (serial : BitVec 32) (code : Byte)
  | ackTimeout
  | readyChange (asserted : Bool)
  | stopChange (asserted : Bool)
  | frameError (link : Link) (bytes : List LineByte)
  | linkGapTimeout (burst : Burst)
  | hostFrameReceived (kind id : Byte) (payload : List Byte)
  | replySent
  | reportSent
  | unknownKind (kind id : Byte) (payload : List Byte)
  | identify (id : Byte) (payload : List Byte)
  | setSection (id : Byte) (payload : List Byte)
  | setOutput (id : Byte) (payload : List Byte)
  | armPair (id : Byte) (payload : List Byte)
  | setTrim (id : Byte) (payload : List Byte)
  | setGrade (id : Byte) (payload : List Byte)
  | setRules (id : Byte) (payload : List Byte)
  | setPrices (id : Byte) (payload : List Byte)
  | commitBank (id : Byte) (payload : List Byte)
  | setProfile (id : Byte) (payload : List Byte)
  | clearTrend (id : Byte) (payload : List Byte)
  | setPocket (id : Byte) (payload : List Byte)
  | setLine (id : Byte) (payload : List Byte)
  | setLabel (id : Byte) (payload : List Byte)
  | setReports (id : Byte) (payload : List Byte)
  | startLine (id : Byte) (payload : List Byte)
  | stopLine (id : Byte) (payload : List Byte)
  | haltLine (id : Byte) (payload : List Byte)
  | clearHalt (id : Byte) (payload : List Byte)
  | feedHold (id : Byte) (payload : List Byte)
  | reset (id : Byte) (payload : List Byte)
  | testOutputLevel (id : Byte) (rest : List Byte)
  | testOutputPulse (id : Byte) (rest : List Byte)
  | testOutputTarget (id : Byte) (rest : List Byte)
  | closePocket (id : Byte) (payload : List Byte)
  | holdPocket (id : Byte) (payload : List Byte)
  | releasePocket (id : Byte) (payload : List Byte)
  | clearPocket (id : Byte) (payload : List Byte)
  | pauseLabels (id : Byte) (payload : List Byte)
  | resumeLabels (id : Byte) (payload : List Byte)
  | skipLabel (id : Byte) (payload : List Byte)
  | reprintLabel (id : Byte) (payload : List Byte)
  | getState (id : Byte) (payload : List Byte)
  | getStrip (id : Byte) (payload : List Byte)
  | getPocket (id : Byte) (payload : List Byte)
  | getLabels (id : Byte) (payload : List Byte)
  | getCounts (id : Byte) (payload : List Byte)
  | clearCounts (id : Byte) (payload : List Byte)
  | getList (id : Byte) (payload : List Byte)
  | bothPhasesChange (sec : Sec)
  | malformedScanFrame
  | printerMalformedFrame (kind id : Byte) (payload : List Byte)
deriving DecidableEq, Repr

end Sys2Proof
end

