-- ==== Sys2Proof/Config.lean ====
section
/-! DEFINITION. What is fixed for the part (its capacities), and the one free value: the order the manual leaves open. -/

namespace Sys2Proof.Config

/-- Capacities named by IDENTIFY (R195) and by the rules in brackets. -/
abbrev nRecords : Nat := 64
/-- Entries of one action schedule (R31). -/
abbrev nSchedule : Nat := 32
/-- Pockets (R132). -/
abbrev nPockets : Nat := 12
/-- Grade rules of a bank (R66). -/
abbrev nRules : Nat := 48
/-- Entries of the label queue (R158). -/
abbrev nLabels : Nat := 8
/-- Entries of the report queue (R193). -/
abbrev nReports : Nat := 48
/-- Requests held (R189). -/
abbrev nRequests : Nat := 4
/-- Free report entries a PIECE report needs (R192). -/
abbrev pieceReserve : Nat := 8
/-- SCAN_START frames held (R51). -/
abbrev nScanStarts : Nat := 8
/-- Frames of the intake queue (R53). -/
abbrev nIntake : Nat := 24
/-- Defect entries of a record (R3). -/
abbrev nDefects : Nat := 16
/-- The longest payload of a frame (R186). -/
abbrev maxPayload : Nat := 240
/-- Highest serial (R156). -/
abbrev maxSerial : Nat := 99999999

/-- FREE VALUE (log 7). When several positions are reached in one event, the manual says that the
outcome depends on which is taken first (R37, R44) and gives no order. The n-th choice of the run
takes the place `pick n`, modulo the number of places. Nothing constrains it. -/
opaque pick : Nat → Nat

end Sys2Proof.Config
end

