-- ==== Sys2Proof/Machine/State.lean ====
section
/-! DEFINITION. The state of the part, block by block (00 section 3), as plain data, and its reset value. -/

namespace Sys2Proof.Machine

open Sys2Proof.Config

/-! ### Strip records (01) -/

/-- The five location lists (R11). -/
inductive Loc where
  | free | s1 | s2 | s3 | s4
deriving DecidableEq, Repr

/-- The two table banks (R65). -/
inductive Bank where
  | a | b
deriving DecidableEq, Repr

/-- Face scan status (R3). -/
inductive FaceStatus where
  | awaiting | complete | failed | degraded | overflow
deriving DecidableEq, Repr

/-- The two faces of a strip (R3). -/
inductive Face where
  | top | bottom
deriving DecidableEq, Repr

/-- The three heads of the scanning station (R58). -/
inductive Head where
  | top | bottom | profile
deriving DecidableEq, Repr

/-- One defect list entry (R3). -/
structure Defect where
  cls      : BitVec 4
  face     : Face
  start    : Nat
  extent   : Nat
  severity : BitVec 4
deriving DecidableEq, Repr

/-- Profile status (R4). -/
inductive ProfileStatus where
  | awaiting | pass | fail | unchecked
deriving DecidableEq, Repr

/-- Solve status (R5). -/
inductive SolveStatus where
  | none | queued | solving | solved | missed
deriving DecidableEq, Repr

/-- The solution of a solve (R5); grade X is `none`. -/
structure Solution where
  t1    : Nat
  t2    : Nat
  len   : Nat
  grade : Option (Fin 8)
  value : Nat
  bonus : Bool
  slack : Nat
deriving DecidableEq, Repr

/-- Why a strip ends where it ends (R6). -/
inductive Reason where
  | none | undersize | overlength | unscanned | missed | noGrade | noFit | overflowFull | profile
  | suspect | cutMissed | endMatchSkipped | scheduleFull | lost
deriving DecidableEq, Repr

/-- Where a strip is to end (R6). A BIN names the regrade or overflow bin of the line settings at the
write; it is `none` only where the settings name no such bin, which START_LINE and SET_LINE exclude
while records are live (R174, R196). -/
inductive Disposition where
  | undecided
  | pocket (p : Fin 12)
  | bin (p : Option (Fin 12)) (r : Reason)
  | runoff (r : Reason)
deriving DecidableEq, Repr

/-- A reserved bundle place (R7). -/
structure Placement where
  pocket : Fin 12
  row    : Fin 12
  amount : Nat
deriving DecidableEq, Repr

/-- The fault set (R8). -/
structure FaultSet where
  suspect         : Bool := false
  cutMissed       : Bool := false
  endMatchSkipped : Bool := false
deriving DecidableEq, Repr

/-- A strip record (R2 to R9); the default values are those of a blank record. -/
structure Record where
  tag           : Nat := 0
  loc           : Loc := .free
  bank          : Bank := .a
  len           : Nat := 0
  lead          : Pos := 0
  committed     : Bool := false
  sortCommitted : Bool := false
  top           : FaceStatus := .awaiting
  bottom        : FaceStatus := .awaiting
  defects       : List Defect := []
  profile       : ProfileStatus := .awaiting
  deviations    : Option (Vector Int 4) := Option.none
  solve         : SolveStatus := .none
  solution      : Option Solution := Option.none
  disp          : Disposition := .undecided
  placement     : Option Placement := Option.none
  faults        : FaultSet := {}
  eyeLength     : Option Nat := Option.none
deriving DecidableEq, Repr

/-- The record pool: the records, the lists FREE and S1 to S4, head first, and the tag counter
(R1, R10, R11). -/
structure Pool where
  records    : Vector Record 64
  free       : List (Fin 64)
  onSec      : Vector (List (Fin 64)) 4
  tagCounter : Nat
deriving DecidableEq, Repr

/-! ### Section units (02) -/

/-- Section settings (R30); C counts on S2 and K_c on S4 only. -/
structure SectionCfg where
  inverted  : Bool := false
  divider   : Nat := 0
  scale     : Nat := 1000
  debounce  : Nat := 0
  reversal  : Nat := 0
  distance  : Nat := 0
  window    : Nat := 50
  commit    : Nat := 0
  sort      : Nat := 0
deriving DecidableEq, Repr

/-- A combination of a protected pair's two lines (07 section 7.3). -/
structure Combo where
  first  : Bool
  second : Bool
deriving DecidableEq, Repr

/-- The action of a schedule entry (R31). -/
inductive Action where
  | linePulse (line : Fin 24)
  | pairTarget (pair : Fin 6) (target : Combo)
deriving DecidableEq, Repr

/-- A schedule entry (R31). `bin` names the bin a kick is scheduled into (R140), none for any other
entry. -/
structure Entry where
  due    : Pos
  action : Action
  index  : Fin 64
  bin    : Option (Fin 12)
deriving DecidableEq, Repr

/-- A pending eye change: the new state and the counter when the input took it (R28). -/
structure PendingEye where
  blocked : Bool
  pos     : Pos
deriving DecidableEq, Repr

/-- The record whose tail edge an eye awaits, with its tag and its lead edge position (R36, R38). -/
structure AwaitTail where
  index : Fin 64
  tag : Nat
  pos : Pos
deriving DecidableEq, Repr

/-- One section unit (R22 to R38). -/
structure SectionUnit where
  cfg      : SectionCfg := {}
  acc      : Nat := 0
  counter  : Pos := 0
  highMark : Pos := 0
  blocked  : Bool := false
  pending  : Option PendingEye := Option.none
  edges    : Count := 0
  schedule : List Entry := []
  awaiting : Option AwaitTail := Option.none
deriving DecidableEq, Repr

/-- An entry of the run-off watch of S4 (R43). -/
structure WatchEntry where
  index : Fin 64
  due : Pos
deriving DecidableEq, Repr

/-- Cut execution: saw and end-head settings, last retracts (R103, R104, R113), the cut set of S2 (R39)
and the run-off watch of S4 (R43). -/
structure CutUnit where
  sawPos      : Nat := 0
  sawLine     : Option (Fin 24) := Option.none
  sawRecovery : Nat := 100
  tonguePair  : Option (Fin 6) := Option.none
  groovePair  : Option (Fin 6) := Option.none
  hT : Nat := 0
  hG : Nat := 0
  aT : Nat := 0
  rT : Nat := 0
  aG : Nat := 0
  rG : Nat := 0
  clearance   : Nat := 0
  lastTongue  : Option Pos := Option.none
  lastGroove  : Option Pos := Option.none
  cutSet      : List (Fin 64) := []
  watch       : List WatchEntry := []
deriving DecidableEq, Repr

/-! ### Gauge and scan intake (03) -/

/-- The gauge (03 section 3.1, R45). -/
inductive Gauge where
  | idle
  | measuring (leadPos overPos : Pos)
  | overlong
deriving DecidableEq, Repr

/-- A SCAN_START frame: tag and L (R51). -/
structure ScanStart where
  tag : Nat
  len : Nat
deriving DecidableEq, Repr

/-- A frame as received or sent: kind, id and payload (R186). -/
structure Frame where
  kind    : Byte
  id      : Byte
  payload : List Byte
deriving DecidableEq, Repr

/-- The face tally of one face (R55). -/
structure Tally where
  count : Nat := 0
  more  : Bool := false
deriving DecidableEq, Repr

/-- The face tallies of one record index (R55). -/
structure Tallies where
  top    : Tally := {}
  bottom : Tally := {}
deriving DecidableEq, Repr

/-- A head's error counter and state (R58, R59). -/
structure HeadUnit where
  errors   : Nat := 0
  degraded : Bool := false
deriving DecidableEq, Repr

/-- The scan intake (R51, R53, R55, R58, R59, R64). -/
structure ScanIntake where
  starts    : List ScanStart := []
  queue     : List Frame := []
  tallies   : Vector Tallies 64 := Vector.replicate 64 {}
  top       : HeadUnit := {}
  bottom    : HeadUnit := {}
  profile   : HeadUnit := {}
  linkErr   : Count := 0
  overflow  : Count := 0
  unknown   : Count := 0
  late      : Count := 0
deriving DecidableEq, Repr

/-! ### Trim solver (04) -/

/-- The faces a grade rule matches (R66). -/
inductive FaceSet where
  | top | bottom | both
deriving DecidableEq, Repr

/-- A grade rule (R66). -/
structure GradeRule where
  used        : Bool := false
  grade       : Fin 8 := 0
  cls         : BitVec 4 := 0
  mask        : BitVec 4 := 0
  faces       : FaceSet := .both
  maxSeverity : BitVec 4 := 0
  maxCount    : Nat := 1
deriving DecidableEq, Repr

/-- A grade definition (R65). -/
structure GradeDef where
  defined : Bool := false
  name    : Vector Byte 8 := Vector.replicate 8 0x20
  lmin    : Nat := 150
deriving DecidableEq, Repr

/-- One table bank (R65, R66). -/
structure BankTable where
  tmin   : Nat := 0
  step   : Nat := 5
  tend   : Nat := 0
  bands  : Vector Nat 7 := Vector.replicate 7 0
  prices : Vector (Vector Nat 8) 8 := Vector.replicate 8 (Vector.replicate 8 0)
  grades : Vector GradeDef 8 := Vector.replicate 8 {}
  rules  : Vector GradeRule 48 := Vector.replicate 48 {}
deriving DecidableEq, Repr

/-- What the snapshot holds of a grade's target pocket (R80). -/
structure SnapTarget where
  pocket    : Fin 12
  joint     : Nat
  bonus     : Nat
  tolerance : Nat
  gaps      : List Nat
deriving DecidableEq, Repr

/-- The solve in flight: the record and the snapshot, a target for each grade or none (R77, R80). -/
structure Flight where
  index : Fin 64
  snap : Vector (Option SnapTarget) 8
deriving DecidableEq, Repr

/-- The trim solver; it is SOLVING when `flight` is present (R65, R67, R76, R77). -/
structure Solver where
  bankA         : BankTable := {}
  bankB         : BankTable := {}
  active        : Bank := .a
  commitPending : Bool := false
  queue         : List (Fin 64) := []
  flight        : Option Flight := Option.none
deriving DecidableEq, Repr

/-! ### Profile check (05) -/

/-- Trend state (R96). -/
inductive TrendState where
  | normal | warning | limit
deriving DecidableEq, Repr

/-- The settings of one dimension (R91). -/
structure DimCfg where
  nominal   : Nat := 0
  tolerance : Nat := 0
  warn      : Nat := 0
  limit     : Nat := 0
deriving DecidableEq, Repr

/-- The profile check (R91, R95, R96, R101). -/
structure ProfileCheck where
  enable : Bool := false
  hold   : Bool := false
  shift  : Nat := 1
  dims   : Vector DimCfg 4 := Vector.replicate 4 {}
  trends : Vector Int 4 := Vector.replicate 4 0
  state  : TrendState := .normal
  fails  : Count := 0
deriving DecidableEq, Repr

/-! ### Output stage (07) -/

/-- The duty of a hold-duty line (R117). -/
inductive Duty where
  | full | half | quarter | eighth
deriving DecidableEq, Repr

/-- A line configuration (R117). -/
structure LineCfg where
  pulse    : Bool := false
  width    : Nat := 100
  holdDuty : Bool := false
  pullIn   : Nat := 100
  duty     : Duty := .full
deriving DecidableEq, Repr

/-- A line's state; a pulse holds the clock value at which its width expires (R118). -/
inductive LineState where
  | off
  | pulsing (ends : Nat)
  | held
deriving DecidableEq, Repr

/-- The drive phase of a line with hold duty on; FULL holds the clock value at which the pull-in
expires, CHOPPED the pin's level and the clock value at which its on or off time runs out (R120). -/
inductive DrivePhase where
  | full (ends : Nat)
  | chopped (on : Bool) (ends : Nat)
deriving DecidableEq, Repr

/-- One output line (R117, R118, R120). -/
structure Line where
  cfg   : LineCfg := {}
  state : LineState := .off
  phase : Option DrivePhase := Option.none
deriving DecidableEq, Repr

/-- An armed pair; `timer` is the clock value at which a running dead time ends (R123, R124). -/
structure Pair where
  first  : Fin 24
  second : Fin 24
  dead   : Nat
  safe   : Combo
  shown  : Combo
  timer  : Option Nat
  target : Option Combo
deriving DecidableEq, Repr

/-- The output stage; the saw is RECOVERING while `saw` holds the clock value at which its recovery
ends (R107, R130). -/
structure OutputStage where
  lines : Vector Line 24 := Vector.replicate 24 {}
  pairs : Vector (Option Pair) 6 := Vector.replicate 6 Option.none
  saw   : Option Nat := Option.none
deriving DecidableEq, Repr

/-! ### Pocket unit (08) -/

/-- A pocket configuration (R132); `isBin` is the kind. -/
structure PocketCfg where
  inService : Bool := false
  isBin     : Bool := false
  grade     : Fin 8 := 0
  kicker    : Option (Fin 24) := Option.none
  position  : Nat := 0
  offset    : Nat := 0
  alternate : Option (Fin 12) := Option.none
  rows      : Nat := 1
  rowLen    : Nat := 300
  joint     : Nat := 0
  closeGap  : Nat := 0
  maxPieces : Nat := 1
  bonus     : Nat := 0
  tolerance : Nat := 0
  capacity  : Nat := 1
deriving DecidableEq, Repr

/-- Pocket state (R133). -/
inductive PocketState where
  | offline | empty | filling | closing | closed | full | stalled
deriving DecidableEq, Repr

/-- Close reason (R135). -/
inductive CloseReason where
  | none | full | maxPieces | host
deriving DecidableEq, Repr

/-- Label state of a bundle (R135); "waiting" is membership of the label-wait set (R145). -/
inductive LabelState where
  | none
  | waiting
  | labelled (serial : Nat)
deriving DecidableEq, Repr

/-- A bundle record (R135). -/
structure Bundle where
  grade       : Fin 8
  committed   : Vector Nat 12 := Vector.replicate 12 0
  reserved    : Vector Nat 12 := Vector.replicate 12 0
  pieces      : Nat := 0
  reservations : Nat := 0
  total       : Nat := 0
  histogram   : Vector Nat 8 := Vector.replicate 8 0
  closeReason : CloseReason := .none
  label       : LabelState := .none
deriving DecidableEq, Repr

/-- A pocket (R132, R133, R135, R140). -/
structure Pocket where
  cfg    : PocketCfg := {}
  state  : PocketState := .offline
  prior  : Option PocketState := Option.none
  lost   : Bool := false
  bundle : Option Bundle := Option.none
  count  : Nat := 0
deriving DecidableEq, Repr

/-- The filter of a pocket-clear input (R149): the filtered level, and the clock value at which a
level other than it will have been held for 10 ms. -/
structure ClearFilter where
  level   : Bool := false
  pending : Option Nat := Option.none
deriving DecidableEq, Repr

/-! ### Label channel (09) -/

/-- Flow mode (R155). -/
inductive FlowMode where
  | free | paced | readyLevel | readyPulse
deriving DecidableEq, Repr

/-- Label entry status (R158). -/
inductive LabelStatus where
  | queued | sending | awaitAck | printed | failed | skipped
deriving DecidableEq, Repr

/-- Fail cause (R157). -/
inductive FailCause where
  | none | nak | timeout
deriving DecidableEq, Repr

/-- A label entry (R157). -/
structure LabelEntry where
  serial      : Nat
  pocket      : Fin 12
  grade       : Fin 8
  name        : Vector Byte 8
  species     : Vector Byte 4
  lot         : Vector Byte 8
  pieces      : Nat
  total       : Nat
  area        : Nat
  histogram   : Vector Nat 8
  closeReason : CloseReason
  copies      : Nat
  status      : LabelStatus := .queued
  cause       : FailCause := .none
  code        : Byte := 0
  afterStop   : Bool := false
deriving DecidableEq, Repr

/-- Channel state (R159). -/
inductive ChanState where
  | idle | sending | awaitAck | paused | stopped | fault
deriving DecidableEq, Repr

/-- The label channel (R155 to R172). `current` and `faultEntry` are serials. `wire` is the frame
being transmitted on the printer link. `stopSeen` says that STOP was asserted during the
transmission of the current entry (R166, log 24). -/
structure LabelChannel where
  species      : Vector Byte 4 := Vector.replicate 4 0x20
  lot          : Vector Byte 8 := Vector.replicate 8 0x20
  width        : Nat := 0
  copies       : Nat := 1
  flow         : FlowMode := .free
  pace         : Nat := 100
  ackTimeout   : Nat := 2000
  serial       : Nat := 1
  queue        : List LabelEntry := []
  state        : ChanState := .idle
  current      : Option Nat := Option.none
  pausePending : Bool := false
  faultEntry   : Option Nat := Option.none
  prevSend     : Option Nat := Option.none
  permit       : Bool := false
  ackTimer     : Option Nat := Option.none
  wire         : Option Frame := Option.none
  stopSeen     : Bool := false
  linkErr      : Count := 0
  unmatched    : Count := 0
deriving DecidableEq, Repr

/-! ### Run control (10) -/

/-- Run state (R173). -/
inductive RunState where
  | config | run | drain | halt
deriving DecidableEq, Repr

/-- Halt reason (R173). -/
inductive HaltReason where
  | none
  | host
  | reversal (sec : Sec)
deriving DecidableEq, Repr

/-- The set of feed-hold reasons (R181). -/
structure HoldReasons where
  notRunning : Bool := true
  lowRecords : Bool := false
  profile    : Bool := false
  host       : Bool := false
deriving DecidableEq, Repr

/-- The line counters (R184). -/
structure LineCounters where
  gauged     : Count := 0
  untracked  : Count := 0
  undersize  : Count := 0
  overlength : Count := 0
  unscanned  : Count := 0
  solved     : Count := 0
  missed     : Count := 0
  cutMissed  : Count := 0
  endSkipped : Count := 0
  stray      : Vector Count 3 := Vector.replicate 3 0
  lost       : Vector Count 4 := Vector.replicate 4 0
  suspect    : Count := 0
  kicked     : Vector Count 12 := Vector.replicate 12 0
  runoff     : Count := 0
deriving DecidableEq, Repr

/-- The line settings (R196). -/
structure LineSettings where
  regrade   : Option (Fin 12) := Option.none
  overflow  : Option (Fin 12) := Option.none
  feedLine  : Option (Fin 24) := Option.none
  threshold : Nat := 6
  tolerance : Nat := 10
deriving DecidableEq, Repr

/-- Run control (R173, R181, R184, R196). -/
structure RunControl where
  state    : RunState := .config
  halt     : HaltReason := .none
  reasons  : HoldReasons := {}
  counters : LineCounters := {}
  settings : LineSettings := {}
deriving DecidableEq, Repr

/-! ### Host link and report queue (11) -/

/-- What a PIECE report carries of a record (12.4, offsets 2 to 40). -/
structure PieceInfo where
  tag        : Nat := 0
  len        : Nat := 0
  eyeLength  : Option Nat := Option.none
  disp       : Disposition := .undecided
  row        : Option (Fin 12) := Option.none
  faults     : FaultSet := {}
  top        : FaceStatus := .awaiting
  bottom     : FaceStatus := .awaiting
  profile    : ProfileStatus := .awaiting
  deviations : Option (Vector Int 4) := Option.none
  solve      : SolveStatus := .none
  solution   : Option Solution := Option.none
  bank       : Bank := .a
deriving DecidableEq, Repr

/-- Pocket event of a POCKET report (R151). -/
inductive PocketEvent where
  | opened | closing | labelWait | closed | discarded | cleared | full | held | released | configured
  | clearIgnored
deriving DecidableEq, Repr

/-- Event of a LABEL report (R171). -/
inductive LabelEvent where
  | printed | failed | sentAfterStop
deriving DecidableEq, Repr

/-- Cause of a RUN report (R173). -/
inductive RunCause where
  | startLine | stopLine | drained | haltLine
  | reversal (sec : Sec)
  | clearHalt
deriving DecidableEq, Repr

/-- Source of a PROTECT report (R121, R127). -/
inductive Source where
  | host
  | unit (sec : Sec)
  | runControl
deriving DecidableEq, Repr

/-- The fields of a report, beside the lost count and the sequence it gets at admission
(R59, R97, R121, R127, R151, R171, R173, 12.4). -/
inductive Report where
  | piece (info : PieceInfo)
  /-- A stray at the eye of a section (R36). -/
  | stray (sec : Sec)
  /-- A record lost on a section (R37, R43, R44). -/
  | lost (sec : Sec) (info : PieceInfo)
  | pocket (p : Fin 12) (isBin : Bool) (former new : PocketState) (event : PocketEvent)
      (reason : CloseReason) (pieces serial count : Nat)
  | label (serial : Nat) (p : Fin 12) (event : LabelEvent) (status : LabelStatus) (copies : Nat)
      (cause : FailCause) (code : Byte) (afterStop : Bool)
  | profile (new former : TrendState) (dimension : Nat) (trends : Vector Int 4) (tag : Nat)
  | link (head : Head) (degraded : Bool) (errors : Nat)
  /-- A line request that names a line of an armed pair (R121). -/
  | lineInPair (source : Source) (tag : Nat) (line : Fin 24) (pair : Fin 6)
  /-- A target request for the forbidden combination (R127). -/
  | forbidden (source : Source) (tag : Nat) (pair : Fin 6) (requested shown : Combo)
  | run (former new : RunState) (cause : RunCause) (released : Nat)
deriving DecidableEq, Repr

/-- An admitted report: its sequence, its lost-count field and its fields (R192). -/
structure QueuedReport where
  seq  : Byte
  lost : Nat
  body : Report
deriving DecidableEq, Repr

/-- The report queue (R192 to R194). -/
structure ReportQueue where
  queue : List QueuedReport := []
  lost  : Nat := 0
  seq   : Byte := 0
  mask  : Byte := 0
deriving DecidableEq, Repr

/-- A link's receiver; while receiving it holds the bytes of the frame after the start byte (R187). -/
inductive Receiver where
  | hunting
  | receiving (got : List Byte)
deriving DecidableEq, Repr

/-- The host link's transmitter (R191); the report being sent is the head of the report queue. -/
inductive HostTx where
  | idle
  | reply (f : Frame)
  | report
deriving DecidableEq, Repr

/-- The host link, and the receivers of all three links (R186 to R191, R200). -/
structure HostLink where
  rate      : BitVec 2 := 0
  rxHost    : Receiver := .hunting
  rxScan    : Receiver := .hunting
  rxPrinter : Receiver := .hunting
  requests  : List Frame := []
  waiting   : Option Frame := Option.none
  tx        : HostTx := .idle
  frameErr  : Count := 0
  overrun   : Count := 0
deriving DecidableEq, Repr

/-! ### The whole part -/

/-- The state: the input pins, the twelve blocks, and the model's own clock (log 5), choice counter
(log 7) and queue of waiting commands. -/
structure State where
  pins    : InputPins
  pool    : Pool
  secs    : Vector SectionUnit 4
  cuts    : CutUnit
  gauge   : Gauge
  scan    : ScanIntake
  solver  : Solver
  check   : ProfileCheck
  out     : OutputStage
  pockets : Vector Pocket 12
  clears  : Vector ClearFilter 12
  labels  : LabelChannel
  run     : RunControl
  reports : ReportQueue
  host    : HostLink
  clock   : Nat
  choice  : Nat
  pending : List Instr
deriving DecidableEq, Repr

/-- No rule of the manual stops the part, so the model has no fault. -/
inductive Fault where
deriving DecidableEq, Repr

/-- Why a command has no meaning in the model. -/
inductive Refusal where
  /-- Raised by `exec` for a command that has no meaning yet; safe. No arm raises it. -/
  | notModelled (mnemonic : String)
deriving DecidableEq, Repr

/-- The input levels of `State.reset` (log 8): every phase, strap, READY, STOP and clear input low, and
every eye clear. DESIGN CHOICE. -/
def InputPins.low : InputPins where
  phaseA := Vector.replicate 4 false
  phaseB := Vector.replicate 4 false
  eyes   := Vector.replicate 4 false
  clears := Vector.replicate 12 false
  ready  := false
  stop   := false
  rate   := 0

/-- All 64 records blank, FREE in index order, the tag counter 1 (R19). -/
def Pool.reset : Pool where
  records    := Vector.replicate 64 {}
  free       := List.finRange 64
  onSec      := Vector.replicate 4 []
  tagCounter := 1

/-- The part right after a power-on reset that found every input low (R19, R65 to R67, R102, R116, R130,
R154, R172, R173, R181, R200; log 8). -/
def State.reset : State where
  pins    := InputPins.low
  pool    := Pool.reset
  secs    := Vector.replicate 4 {}
  cuts    := {}
  gauge   := .idle
  scan    := {}
  solver  := {}
  check   := {}
  out     := {}
  pockets := Vector.replicate 12 {}
  clears  := Vector.replicate 12 {}
  labels  := {}
  run     := {}
  reports := {}
  host    := {}
  clock   := 0
  choice  := 0
  pending := []

end Sys2Proof.Machine
end

