-- ==== Sys2Proof/Machine/Frames.lean ====
section
/-! DEFINITION. Frames on the wire (R186, R187) and the codes of the enumerated fields (R201). -/

namespace Sys2Proof.Machine

open Sys2Proof.Config

/-! ### The CRC (R186) -/

/-- One bit of the CRC with polynomial 0x1021, high bit first (R186). -/
def crcBit (c : BitVec 16) : BitVec 16 :=
  if c.msb then (c <<< 1) ^^^ 0x1021#16 else c <<< 1

/-- `n` bits of the CRC. -/
def crcBits : Nat → BitVec 16 → BitVec 16
  | 0, c => c
  | n + 1, c => crcBits n (crcBit c)

/-- The CRC after one more byte, high bit first (R186). -/
def crcByte (c : BitVec 16) (b : Byte) : BitVec 16 :=
  crcBits 8 (c ^^^ (b.setWidth 16 <<< 8))

/-- The CRC over bytes, initial value 0xFFFF, no final inversion (R186). -/
def crc16 (bytes : List Byte) : BitVec 16 := bytes.foldl crcByte 0xFFFF#16

/-- The bytes that the CRC covers: length, kind, id, payload (R186). -/
def Frame.covered (f : Frame) : List Byte := toByte f.payload.length :: f.kind :: f.id :: f.payload

/-- The whole frame on the wire (R186, 12). -/
def Frame.bytes (f : Frame) : List Byte := 0x5A :: (f.covered ++ be16 (crc16 f.covered).toNat)

/-! ### The receiver (R187) -/

/-- What a byte brings to the owner of a link (R187). A failed frame is known only where it was received to its end. -/
inductive Reception where
  | nothing
  | whole (f : Frame)
  | failed (f : Option Frame)
deriving DecidableEq, Repr

/-- A frame received to its end, from its length byte on: whole when the CRC over its bytes equals the two CRC bytes
(R187). -/
def received : List Byte → Reception
  | n :: kind :: id :: rest =>
    let f : Frame := ⟨kind, id, rest.take n.toNat⟩
    if rest.drop n.toNat = be16 (crc16 (n :: kind :: id :: f.payload)).toNat then .whole f else .failed (some f)
  | _ => .failed none

/-- The receiver after one more byte of a frame, which follows the bytes it holds: the length byte is judged at once,
and the frame ends with its second CRC byte, by count (R187). -/
def Receiver.takeGood (got : List Byte) (b : Byte) : Receiver × Reception :=
  match got with
  | [] => if maxPayload < b.toNat then (.hunting, .failed none) else (.receiving [b], .nothing)
  | n :: rest =>
    if rest.length + 2 < n.toNat + 5 then (.receiving (got ++ [b]), .nothing) else (.hunting, received (got ++ [b]))

/-- The receiver takes a byte: hunting, it ignores all but the start byte; receiving, a byte error ends the frame
(R187). Hunting, a byte error is ignored whatever its byte, a 0x5A too, the model's choice (log 48). -/
def Receiver.take : Receiver → LineByte → Receiver × Reception
  | .hunting, .good b => (if b = 0x5A then .receiving [] else .hunting, .nothing)
  | .hunting, .error => (.hunting, .nothing)
  | .receiving got, .good b => Receiver.takeGood got b
  | .receiving _, .error => (.hunting, .failed none)

/-! ### Codes (R201) -/

def Loc.code : Loc → Byte
  | .free => 0 | .s1 => 1 | .s2 => 2 | .s3 => 3 | .s4 => 4

def Bank.code : Bank → Byte
  | .a => 0 | .b => 1

def FaceStatus.code : FaceStatus → Byte
  | .awaiting => 0 | .complete => 1 | .failed => 2 | .degraded => 3 | .overflow => 4

def ProfileStatus.code : ProfileStatus → Byte
  | .awaiting => 0 | .pass => 1 | .fail => 2 | .unchecked => 3

def SolveStatus.code : SolveStatus → Byte
  | .none => 0 | .queued => 1 | .solving => 2 | .solved => 3 | .missed => 4

/-- Grade 0 to 7; X is 8 (R201). -/
def gradeCode : Option (Fin 8) → Byte
  | some g => toByte g.val
  | none => 8

def Reason.code : Reason → Byte
  | .none => 0 | .undersize => 1 | .overlength => 2 | .unscanned => 3 | .missed => 4 | .noGrade => 5
  | .noFit => 6 | .overflowFull => 7 | .profile => 8 | .suspect => 9 | .cutMissed => 10
  | .endMatchSkipped => 11 | .scheduleFull => 12 | .lost => 13

/-- An index, or 0xFF for none (R201). -/
def indexCode {n : Nat} : Option (Fin n) → Byte
  | some i => toByte i.val
  | none => 0xFF

/-- Disposition kind, pocket, reason, one byte each (12.4, R201). -/
def Disposition.bytes : Disposition → List Byte
  | .undecided => [0, 0xFF, 0]
  | .pocket p => [1, toByte p.val, 0]
  | .bin p r => [2, indexCode p, r.code]
  | .runoff r => [3, 0xFF, r.code]

/-- The fault set: bit 0 suspect, bit 1 cut missed, bit 2 end match skipped (R201). -/
def FaultSet.code (f : FaultSet) : Byte :=
  toByte ((if f.suspect then 1 else 0) + (if f.cutMissed then 2 else 0) + (if f.endMatchSkipped then 4 else 0))

def Face.code : Face → Byte
  | .top => 1 | .bottom => 2

def CloseReason.code : CloseReason → Byte
  | .none => 0 | .full => 1 | .maxPieces => 2 | .host => 3

def RunState.code : RunState → Byte
  | .config => 0 | .run => 1 | .drain => 2 | .halt => 3

/-- Halt reason, then the section of a reversal (12.7). -/
def HaltReason.bytes : HaltReason → List Byte
  | .none => [0, 0] | .host => [1, 0] | .reversal sec => [2, toByte sec.num]

/-- RUN report cause, then the section for cause reversal (12.4). -/
def RunCause.bytes : RunCause → List Byte
  | .startLine => [0, 0] | .stopLine => [1, 0] | .drained => [2, 0] | .haltLine => [3, 0]
  | .reversal sec => [4, toByte sec.num] | .clearHalt => [5, 0]

/-- Feed-hold reasons: bits 0 to 3 (R201). -/
def HoldReasons.code (r : HoldReasons) : Byte :=
  toByte ((if r.notRunning then 1 else 0) + (if r.lowRecords then 2 else 0) + (if r.profile then 4 else 0)
    + (if r.host then 8 else 0))

def PocketState.code : PocketState → Byte
  | .offline => 0 | .empty => 1 | .filling => 2 | .closing => 3 | .closed => 4 | .full => 5 | .stalled => 6

def PocketEvent.code : PocketEvent → Byte
  | .opened => 0 | .closing => 1 | .labelWait => 2 | .closed => 3 | .discarded => 4 | .cleared => 5
  | .full => 6 | .held => 7 | .released => 8 | .configured => 9 | .clearIgnored => 10

def LabelState.code : LabelState → Byte
  | .none => 0 | .waiting => 1 | .labelled _ => 2

/-- The serial of a labelled bundle, 0 otherwise (12.7). -/
def LabelState.serial : LabelState → Nat
  | .labelled n => n
  | _ => 0

def Head.code : Head → Byte
  | .top => 1 | .bottom => 2 | .profile => 3

def TrendState.code : TrendState → Byte
  | .normal => 0 | .warning => 1 | .limit => 2

def ChanState.code : ChanState → Byte
  | .idle => 0 | .sending => 1 | .awaitAck => 2 | .paused => 3 | .stopped => 4 | .fault => 5

def LabelStatus.code : LabelStatus → Byte
  | .queued => 0 | .sending => 1 | .awaitAck => 2 | .printed => 3 | .failed => 4 | .skipped => 5

def FailCause.code : FailCause → Byte
  | .none => 0 | .nak => 1 | .timeout => 2

def LabelEvent.code : LabelEvent → Byte
  | .printed => 0 | .failed => 1 | .sentAfterStop => 2

def Source.code : Source → Byte
  | .host => 0 | .unit sec => toByte sec.num | .runControl => 5

/-- A combination: the first line in bit 1, the second in bit 0 (R201). -/
def Combo.code (c : Combo) : Byte := toByte ((if c.first then 2 else 0) + (if c.second then 1 else 0))

/-- A combination, or 0xFF for none (R201). -/
def comboCode : Option Combo → Byte
  | some c => c.code
  | none => 0xFF

def LineState.code : LineState → Byte
  | .off => 0 | .pulsing _ => 1 | .held => 2

def FlowMode.code : FlowMode → Byte
  | .free => 0 | .paced => 1 | .readyLevel => 2 | .readyPulse => 3

/-! ### Report payloads (12.4), the lost count left out -/

/-- The fields of PIECE at offsets 2 to 40, the row given (12.4). The fields of an absent solution and of absent
deviations are sent as 0, the model's choice (log 45). -/
def PieceInfo.bytes (i : PieceInfo) : List Byte :=
  be16 i.tag ++ be16 i.len ++ be16 (i.eyeLength.getD 0) ++ i.disp.bytes ++ [indexCode i.row, i.faults.code,
    i.top.code, i.bottom.code, i.profile.code]
  ++ (match i.deviations with
      | some d => d.toList.flatMap beInt16
      | none => List.replicate 8 0)
  ++ [i.solve.code]
  ++ (match i.solution with
      | some v => [1] ++ be16 v.t1 ++ be16 v.t2 ++ be16 v.len ++ [gradeCode v.grade] ++ be32 v.value
          ++ [flagByte v.bonus] ++ be16 v.slack
      | none => List.replicate 15 0)
  ++ [i.bank.code]

/-- STRIP_FAULT for a stray: the record's fields 0 but the disposition pocket and the row (12.4). -/
def strayBytes : List Byte :=
  List.replicate 7 0 ++ [0xFF, 0, 0xFF] ++ List.replicate 29 0

/-- A report's own fields, from payload offset 2 on (12.4). -/
def Report.fields : Report → List Byte
  | .piece i => i.bytes
  | .stray sec => [0, toByte sec.num] ++ strayBytes
  | .lost sec i => [1, toByte sec.num] ++ i.bytes
  | .pocket p isBin former new event reason pieces serial count =>
      [toByte p.val, flagByte isBin, former.code, new.code, event.code,
        if isBin then 0 else reason.code, if isBin then 0 else toByte pieces]
      ++ be32 serial ++ be16 (if isBin then count else 0)
  | .label serial p event status copies cause code afterStop =>
      be32 serial ++ [toByte p.val, event.code, status.code, toByte copies, cause.code, code, flagByte afterStop]
  | .profile new former dim trends tag =>
      [new.code, former.code, toByte dim] ++ trends.toList.flatMap beInt32 ++ be16 tag
  | .link head degraded errors => [head.code, flagByte degraded, toByte errors]
  | .lineInPair source tag line pair =>
      [0, source.code] ++ be16 tag ++ [toByte line.val, toByte pair.val, 0xFF, 0xFF]
  | .forbidden source tag pair requested shown =>
      [1, source.code] ++ be16 tag ++ [0xFF, toByte pair.val, requested.code, shown.code]
  | .run former new cause released => [former.code, new.code] ++ cause.bytes ++ [toByte released]

/-- The place of a report's kind in 0x40 + i (12.2), which is its bit in the mask (R201). -/
def Report.kindIndex : Report → Nat
  | .piece _ => 0
  | .stray _ => 1
  | .lost _ _ => 1
  | .pocket .. => 2
  | .label .. => 3
  | .profile .. => 4
  | .link .. => 5
  | .lineInPair .. => 6
  | .forbidden .. => 6
  | .run .. => 7

/-- The frame of an admitted report (R192, R201). -/
def QueuedReport.frame (q : QueuedReport) : Frame :=
  ⟨toByte (0x40 + q.body.kindIndex), q.seq, be16 q.lost ++ q.body.fields⟩

/-! ### Equipment frames (12.5) -/

/-- The SCAN_START frame (R51, 12.5). -/
def ScanStart.frame (f : ScanStart) : Frame := ⟨0x01, toByte f.tag, be16 f.tag ++ be16 f.len⟩

/-- The PRINT_LABEL payload of an entry (R162, 12.5). -/
def LabelEntry.bytes (e : LabelEntry) : List Byte :=
  be32 e.serial ++ [toByte e.pocket.val, toByte e.grade.val] ++ e.name.toList ++ e.species.toList
  ++ e.lot.toList.take 7 ++ [toByte e.pieces] ++ be32 e.total ++ be32 e.area
  ++ e.histogram.toList.map (fun n => toByte n)
  ++ [e.closeReason.code, toByte e.copies, flagByte e.afterStop] ++ e.lot.toList.drop 7

/-- The PRINT_LABEL frame of an entry (R201, 12.5). -/
def LabelEntry.frame (e : LabelEntry) : Frame := ⟨0x01, toByte e.serial, e.bytes⟩

end Sys2Proof.Machine
end

