-- ==== Sys2Proof/Machine/Ops.lean ====
section
/-! DEFINITION. Named reads and writes of the state, and the arithmetic of positions (R23 to R26). -/

namespace Sys2Proof.Machine

/-! ### Positions -/

/-- "To counts" of a section: half up to the nearest count (R25). -/
def SectionCfg.toCounts (c : SectionCfg) (mm : Nat) : Nat := (mm * 1000 + c.scale / 2) / c.scale

/-- "To millimetres" of a section, half up (R25). -/
def SectionCfg.toMm (c : SectionCfg) (counts : Nat) : Nat := (counts * c.scale + 500) / 1000

/-- A position is reached when (c − p) mod 2^24 < 2^23 (R26). -/
def reached (c p : Pos) : Bool := decide ((c - p).toNat < 8388608)

/-- A distance in counts added to a position, modulo 2^24. -/
def addCounts (p : Pos) (counts : Nat) : Pos := p + BitVec.ofNat 24 counts

/-- The list of a section (R11). -/
def locOf : Sec → Loc
  | .s1 => .s1 | .s2 => .s2 | .s3 => .s3 | .s4 => .s4

/-- The other bank: the shadow, when given the active one (04 section 4.1). -/
def Bank.other : Bank → Bank
  | .a => .b
  | .b => .a

namespace State

/-! ### Sections -/

/-- A section unit. -/
def sec (s : State) (x : Sec) : SectionUnit := s.secs[x.idx]

/-- The state with a section unit replaced. -/
def setSec (x : Sec) (u : SectionUnit) (s : State) : State := { s with secs := s.secs.set x.idx u }

/-- The state with a section unit changed. -/
def modSec (x : Sec) (f : SectionUnit → SectionUnit) (s : State) : State := s.setSec x (f (s.sec x))

/-- Whether a position of a section is reached (R26). -/
def isReached (s : State) (x : Sec) (p : Pos) : Bool := reached (s.sec x).counter p

/-- All four section units changed alike. -/
def modSecs (f : SectionUnit → SectionUnit) (s : State) : State :=
  { s with secs := Vector.ofFn (fun i => f s.secs[i]) }

/-! ### Records and lists -/

/-- A record of the pool (R1). -/
def record (s : State) (i : Fin 64) : Record := s.pool.records[i]

/-- The state with a record replaced. -/
def setRecord (i : Fin 64) (r : Record) (s : State) : State :=
  { s with pool := { s.pool with records := s.pool.records.set i r } }

/-- A record is live when it stands in S1 to S4 (R1). -/
def live (s : State) (i : Fin 64) : Bool := decide ((s.record i).loc ≠ .free)

/-- A block's write to a record, taken only while the record is live (R1). -/
def writeRecord (i : Fin 64) (f : Record → Record) (s : State) : State :=
  if s.live i then s.setRecord i (f (s.record i)) else s

/-- The members of a section's list, head first (R11). -/
def list (s : State) (x : Sec) : List (Fin 64) := s.pool.onSec[x.idx]

/-- The state with a section's list replaced. -/
def setList (x : Sec) (l : List (Fin 64)) (s : State) : State :=
  { s with pool := { s.pool with onSec := s.pool.onSec.set x.idx l } }

/-- The free count (R11). -/
def freeCount (s : State) : Nat := s.pool.free.length

/-- The live members in the order of R18: S1 from head to tail, then S2, S3, S4. -/
def liveList (s : State) : List (Fin 64) := s.list .s1 ++ s.list .s2 ++ s.list .s3 ++ s.list .s4

/-- The index of the live record that holds a tag (R10, R21); tag 0 names none. -/
def findTag (s : State) (tag : Nat) : Option (Fin 64) :=
  if tag = 0 then none else (List.finRange 64).find? (fun i => s.live i && decide ((s.record i).tag = tag))

/-- The unsolved count of a bank: its live records of solve status NONE, QUEUED or SOLVING (R68). -/
def unsolved (s : State) (bank : Bank) : Nat :=
  (List.finRange 64).countP (fun i => s.live i && decide ((s.record i).bank = bank) &&
    (decide ((s.record i).solve = .none) || decide ((s.record i).solve = .queued) ||
      decide ((s.record i).solve = .solving)))

/-! ### Banks -/

/-- A table bank (R65). -/
def table (s : State) : Bank → BankTable
  | .a => s.solver.bankA
  | .b => s.solver.bankB

/-- The state with a bank replaced. -/
def setTable (bank : Bank) (t : BankTable) (s : State) : State :=
  match bank with
  | .a => { s with solver := { s.solver with bankA := t } }
  | .b => { s with solver := { s.solver with bankB := t } }

/-! ### Pockets and counters -/

/-- A pocket. -/
def pocket (s : State) (p : Fin 12) : Pocket := s.pockets[p]

/-- The state with a pocket changed. -/
def modPocket (p : Fin 12) (f : Pocket → Pocket) (s : State) : State :=
  { s with pockets := s.pockets.set p (f s.pockets[p]) }

/-- The line counters changed (R184). -/
def modCounters (f : LineCounters → LineCounters) (s : State) : State :=
  { s with run := { s.run with counters := f s.run.counters } }

/-- Cut execution changed. -/
def modCuts (f : CutUnit → CutUnit) (s : State) : State := { s with cuts := f s.cuts }

/-- The pending kick count of a bin: the kick entries scheduled into it that have neither fired nor
been removed (R140). -/
def pendingKicks (s : State) (p : Fin 12) : Nat := (s.sec .s4).schedule.countP (fun e => decide (e.bin = some p))

/-- RUN or DRAIN, in which strips are followed (10.1). -/
def running (s : State) : Bool := decide (s.run.state = .run) || decide (s.run.state = .drain)

/-- The clock moved on to a time that has come, if it has not come to it yet (log 6). -/
def clockTo (t : Nat) (s : State) : State := { s with clock := max s.clock t }

end State

end Sys2Proof.Machine
end

