-- ==== Sys2Proof/Machine/Reports.lean ====
section
/-! DEFINITION. The report queue (R192, R193) and the outbound arbiter of the host link (R191). -/

namespace Sys2Proof.Machine

open Sys2Proof.Config

/-- A PIECE report, which must leave a reserve of free entries (R192). -/
def Report.isPiece : Report → Bool
  | .piece _ => true
  | _ => false

namespace State

/-- The free entries of the report queue (R192, R193). -/
def freeReports (s : State) : Nat := nReports - s.reports.queue.length

/-- A report's kind is masked (R192, R194). -/
def masked (s : State) (r : Report) : Bool := s.reports.mask.getLsbD r.kindIndex

/-- A report finds the free entries its kind needs (R192). -/
def hasRoom (s : State) (r : Report) : Bool :=
  if r.isPiece then decide (pieceReserve ≤ s.freeReports) else decide (1 ≤ s.freeReports)

/-- ATTN is asserted while the queue holds a report (R193). -/
def attn (s : State) : Bool := !s.reports.queue.isEmpty

/-- The admitted report joins the tail with the sequence and the lost count (R192). -/
def enqueueReport (r : Report) (s : State) : State :=
  { s with reports := { s.reports with
      queue := s.reports.queue ++ [⟨s.reports.seq, s.reports.lost, r⟩]
      seq := s.reports.seq + 1
      lost := 0 } }

/-- The arbiter, when the transmitter is IDLE: the waiting reply first, otherwise the head report
(R191). -/
def arbitrate (s : State) : State :=
  match s.host.tx with
  | .idle =>
    match s.host.waiting with
    | some f => { s with host := { s.host with tx := .reply f, waiting := none } }
    | none => if s.reports.queue.isEmpty then s else { s with host := { s.host with tx := .report } }
  | _ => s

/-- A report is offered: dropped when masked, lost when it finds no room, else admitted (R192); a
report admitted to an empty queue while the transmitter is IDLE and no reply waits starts (R191). -/
def offer (r : Report) (s : State) : State :=
  if s.masked r then s
  else if s.hasRoom r then (if s.reports.queue.isEmpty then (s.enqueueReport r).arbitrate else s.enqueueReport r)
  else { s with reports := { s.reports with lost := min 65535 (s.reports.lost + 1) } }

/-- A composed reply is handed to the arbiter (R189, R191). -/
def handReply (f : Frame) (s : State) : State :=
  { s with host := { s.host with waiting := some f } }.arbitrate

/-- The frame on the host link's wire (R191). -/
def hostWire (s : State) : Option Frame :=
  match s.host.tx with
  | .idle => none
  | .reply f => some f
  | .report => s.reports.queue.head?.map QueuedReport.frame

end State

end Sys2Proof.Machine
end

