-- ==== Sys2Proof/Machine/Outputs.lean ====
section
/-! DEFINITION. The output stage: lines, hold duty, the saw recovery timer and protected pairs
(R107, R117 to R128). -/

namespace Sys2Proof.Machine

/-- The complement of a combination: the forbidden combination of a safe state (R123). -/
def Combo.complement (c : Combo) : Combo := ⟨!c.first, !c.second⟩

/-- The target "advance": the advance line on, the retract line off (R104). -/
def Combo.advance : Combo := ⟨true, false⟩

/-- The target "retract" (R104). -/
def Combo.retract : Combo := ⟨false, true⟩

/-- The on time in a chop period of 8 ms (R120). -/
def Duty.onMs : Duty → Nat
  | .full => 8 | .half => 4 | .quarter => 2 | .eighth => 1

/-- A line that is off (R118, R120). -/
def Line.turnOff (l : Line) : Line := { l with state := .off, phase := none }

/-- Whether a line is on, for every purpose but its pin (R120, R123). -/
def Line.isOn (l : Line) : Bool :=
  match l.state with
  | .off => false
  | _ => true

/-- The drive phase of a line that is or stays on: a line leaving OFF starts a full pull-in when its
hold duty is on (R120). -/
def Line.onPhase (l : Line) (clock : Nat) : Option DrivePhase :=
  if l.isOn then l.phase
  else if l.cfg.holdDuty then some (.full (clock + l.cfg.pullIn)) else none

/-- A pulse begun or started again, of the full configured width (R118, R119). -/
def Line.pulseFrom (l : Line) (clock : Nat) : Line :=
  { l with state := .pulsing (clock + l.cfg.width), phase := l.onPhase clock }

/-- A level held (R118). -/
def Line.holdFrom (l : Line) (clock : Nat) : Line :=
  { l with state := .held, phase := l.onPhase clock }

/-- The level of an unpaired line's pin (R118, R120). -/
def Line.pin (l : Line) : Bool :=
  l.isOn && (match l.phase with
    | some (.chopped on _) => on
    | _ => true)

namespace State

/-- An output line. -/
def line (s : State) (l : Fin 24) : Line := s.out.lines[l]

/-- The state with a line changed. -/
def modLine (l : Fin 24) (f : Line → Line) (s : State) : State :=
  { s with out := { s.out with lines := s.out.lines.set l (f s.out.lines[l]) } }

/-- A pair, armed or none. -/
def pair (s : State) (p : Fin 6) : Option Pair := s.out.pairs[p]

/-- The state with a pair replaced. -/
def setPair (p : Fin 6) (q : Option Pair) (s : State) : State :=
  { s with out := { s.out with pairs := s.out.pairs.set p q } }

/-- The armed pair that a line belongs to (R121). -/
def pairOf (s : State) (l : Fin 24) : Option (Fin 6) :=
  (List.finRange 6).find? (fun p =>
    match s.pair p with
    | some q => decide (q.first = l) || decide (q.second = l)
    | none => false)

/-- The saw recovery timer starts, or starts again, with the saw recovery setting (R107). -/
def startSaw (s : State) : State := { s with out := { s.out with saw := some (s.clock + s.cuts.sawRecovery) } }

/-- A pulse begins or starts again on a line; on the saw line it starts the saw recovery timer
(R107, R118, R119). -/
def beginPulse (l : Fin 24) (s : State) : State :=
  let s' := s.modLine l (fun x => x.pulseFrom s.clock)
  if s.cuts.sawLine = some l then s'.startSaw else s'

/-- A pulse request taken by an unpaired line (R118). -/
def pulseRequest (l : Fin 24) (s : State) : State :=
  match (s.line l).state with
  | .held => s
  | _ => s.beginPulse l

/-- A level-on request taken by an unpaired line (R118). -/
def levelOn (l : Fin 24) (s : State) : State :=
  match (s.line l).state with
  | .held => s
  | _ => if (s.line l).cfg.pulse then s.beginPulse l else s.modLine l (fun x => x.holdFrom s.clock)

/-- A level-off request taken by an unpaired line (R118). -/
def levelOff (l : Fin 24) (s : State) : State := s.modLine l Line.turnOff

/-- A level request (R118). -/
def levelRequest (on : Bool) (l : Fin 24) (s : State) : State :=
  if on then s.levelOn l else s.levelOff l

/-- A pulse request of a fired schedule entry: a line of an armed pair does not take it, and PROTECT
line in pair is offered (R121). -/
def firedPulse (x : Sec) (tag : Nat) (l : Fin 24) (s : State) : State :=
  match s.pairOf l with
  | some p => s.offer (.lineInPair (.unit x) tag l p)
  | none => s.pulseRequest l

end State

/-- A pair's reaction to a request for its forbidden combination (R126, R127). -/
def Pair.toSafe (q : Pair) : Pair := { q with shown := q.safe, target := none }

/-- A pair in its safe state with its dead time stopped, as HALT and soft reset leave it (R128, R130). -/
def Pair.rest (q : Pair) : Pair := { q with shown := q.safe, timer := none, target := none }

/-- A target request other than the forbidden combination (R125, R126). -/
def Pair.take (q : Pair) (c : Combo) (clock : Nat) : Pair :=
  match q.timer with
  | some _ => if c = q.safe then { q with target := none } else { q with target := some c }
  | none =>
    if c = q.shown then q
    else if c = q.safe then { q with shown := q.safe }
    else if q.shown = q.safe then { q with shown := c }
    else if q.dead = 0 then { q with shown := c }
    else { q with shown := q.safe, timer := some (clock + q.dead), target := some c }

/-- The expiry of the dead time: the pair drives its pending target, if any (R126). -/
def Pair.expire (q : Pair) : Pair := { q with shown := q.target.getD q.safe, timer := none, target := none }

namespace State

/-- A target request (R121, R125 to R127): not taken by a pair that is not armed; a request for the
forbidden combination drives the pair to its safe state and offers PROTECT forbidden. -/
def targetRequest (source : Source) (tag : Nat) (p : Fin 6) (c : Combo) (s : State) : State :=
  match s.pair p with
  | none => s
  | some q =>
    if c = q.safe.complement then
      (s.setPair p (some q.toSafe)).offer (.forbidden source tag p c q.safe)
    else s.setPair p (some (q.take c s.clock))

/-- The level of an output pin: a paired line shows its pair's combination (R123). -/
def pin (s : State) (l : Fin 24) : Bool :=
  match s.pairOf l with
  | none => (s.line l).pin
  | some p =>
    match s.pair p with
    | some q => if q.first = l then q.shown.first else q.shown.second
    | none => false

/-- The output stage at entry to HALT and at soft reset: every armed pair at rest, every line OFF but
the one kept (R128, R130). -/
def outputsSafe (keep : Option (Fin 24)) (s : State) : State :=
  { s with out := { s.out with
      lines := Vector.ofFn (fun l => if keep = some l then s.out.lines[l] else s.out.lines[l].turnOff)
      pairs := Vector.ofFn (fun p => s.out.pairs[p].map Pair.rest) } }

end State

end Sys2Proof.Machine
end

