-- ==== Sys2Proof/Machine/Flags.lean ====
section
/-! DEFINITION. The feed-hold reasons and the line they drive (R181 to R183), and the low-records test. -/

namespace Sys2Proof.Machine

/-- The set of feed-hold reasons is not empty (R181). -/
def HoldReasons.any (r : HoldReasons) : Bool := r.notRunning || r.lowRecords || r.profile || r.host

namespace State

/-- Run control's level request to a line: a line of an armed pair does not take it, and PROTECT line in
pair is offered with tag 0 (R121, R181). -/
def feedRequest (on : Bool) (l : Fin 24) (s : State) : State :=
  match s.pairOf l with
  | some p => s.offer (.lineInPair .runControl 0 l p)
  | none => s.levelRequest on l

/-- A level request to the feed-hold line, if one is named (R181). -/
def feedLine (on : Bool) (s : State) : State :=
  match s.run.settings.feedLine with
  | some l => s.feedRequest on l
  | none => s

/-- The set of reasons changes; a change between empty and not empty sends a level request (R181). -/
def setReasons (f : HoldReasons → HoldReasons) (s : State) : State :=
  let new := f s.run.reasons
  let s' := { s with run := { s.run with reasons := new } }
  if new.any = s.run.reasons.any then s' else s'.feedLine new.any

/-- The feed-hold line is on (R185, log 16). -/
def feedAsserted (s : State) : Bool :=
  match s.run.settings.feedLine with
  | none => false
  | some l =>
    match s.pairOf l with
    | none => (s.line l).isOn
    | some _ => s.pin l

/-- The low-records test after an allocation (R182). -/
def lowAfterAllocation (s : State) : State :=
  if s.freeCount < s.run.settings.threshold then s.setReasons (fun r => { r with lowRecords := true }) else s

/-- The low-records test after a release (R182). -/
def lowAfterRelease (s : State) : State :=
  if s.run.settings.threshold + 2 ≤ s.freeCount then s.setReasons (fun r => { r with lowRecords := false }) else s

/-- The low-records test when the line settings change the threshold (R182). -/
def lowTest (s : State) : State :=
  if s.freeCount < s.run.settings.threshold then s.setReasons (fun r => { r with lowRecords := true })
  else if s.run.settings.threshold + 2 ≤ s.freeCount then s.setReasons (fun r => { r with lowRecords := false })
  else s

end State

end Sys2Proof.Machine
end

