-- ==== Sys2Proof/Machine/Labels.lean ====
section
/-! DEFINITION. The label channel: composition, the start of a send, the end of an await, removal
(R156 to R170). -/

namespace Sys2Proof.Machine

open Sys2Proof.Config

/-- A LABEL report on an entry (R171). -/
def LabelEntry.report (e : LabelEntry) (event : LabelEvent) : Report :=
  .label e.serial e.pocket event e.status e.copies e.cause e.code e.afterStop

/-- One step of the serial counter (R156). -/
def stepSerial (n : Nat) : Nat := if n = maxSerial then 1 else n + 1

/-- The serial that a composition assigns: values held in the queue are passed over (R156). -/
def pickSerial (used : List Nat) : Nat → Nat → Nat
  | 0, n => n
  | fuel + 1, n => if n ∈ used then pickSerial used fuel (stepSerial n) else n

/-- The area in square centimetres, half up (R157). -/
def labelArea (total width : Nat) : Nat := (total * width + 500) / 1000

namespace State

/-- The label channel changed. -/
def modLabels (f : LabelChannel → LabelChannel) (s : State) : State := { s with labels := f s.labels }

/-- The entry of a serial (R156). -/
def labelEntry (s : State) (serial : Nat) : Option LabelEntry :=
  s.labels.queue.find? (fun e => decide (e.serial = serial))

/-- The entry of a serial changed, at its place in the queue. -/
def modEntry (serial : Nat) (f : LabelEntry → LabelEntry) (s : State) : State :=
  s.modLabels (fun c => { c with queue := c.queue.map (fun e => if e.serial = serial then f e else e) })

/-- The first QUEUED entry in queue order (R160). -/
def firstQueued (s : State) : Option LabelEntry :=
  s.labels.queue.find? (fun e => decide (e.status = .queued))

/-- The flow condition of the flow mode in force (R160). -/
def flowPermits (s : State) : Bool :=
  match s.labels.flow with
  | .free => true
  | .paced =>
    match s.labels.prevSend with
    | none => true
    | some t => decide (t + s.labels.pace ≤ s.clock)
  | .readyLevel => s.pins.ready
  | .readyPulse => s.labels.permit

/-- The send of an entry starts (R160, R162). -/
def startSend (e : LabelEntry) (s : State) : State :=
  (s.modEntry e.serial (fun x => { x with status := .sending })).modLabels (fun c => { c with
    state := .sending
    current := some e.serial
    prevSend := some s.clock
    permit := if c.flow = .readyPulse then false else c.permit
    wire := some e.frame
    stopSeen := false })

/-- The test of R160: in IDLE, with a QUEUED entry and the flow permitting, a send starts. The channel
does not transmit a second frame while one is in flight (R162, log 19). -/
def trySend (s : State) : State :=
  if s.labels.state = .idle ∧ s.labels.wire = none ∧ s.flowPermits = true then
    match s.firstQueued with
    | some e => s.startSend e
    | none => s
  else s

/-- The channel enters IDLE: STOPPED if STOP is asserted, otherwise a send may start (R159). -/
def enterIdle (s : State) : State :=
  if s.pins.stop then s.modLabels (fun c => { c with state := .stopped })
  else (s.modLabels (fun c => { c with state := .idle })).trySend

/-- The channel ends its await without a failure (R165). -/
def endAwait (s : State) : State :=
  if s.labels.pausePending then
    s.modLabels (fun c => { c with current := none, pausePending := false, state := .paused })
  else (s.modLabels (fun c => { c with current := none })).enterIdle

/-- The channel ends its await with a failure of an entry (R165). -/
def endAwaitFailed (serial : Nat) (s : State) : State :=
  if s.labels.pausePending then
    s.modLabels (fun c => { c with current := none, pausePending := false, state := .paused })
  else s.modLabels (fun c => { c with current := none, state := .fault, faultEntry := some serial })

/-- The channel leaves FAULT when its fault entry is resolved (R167 to R170). -/
def leaveFault (s : State) : State := (s.modLabels (fun c => { c with faultEntry := none })).enterIdle

/-- The serial that the next composition assigns (R156). -/
def nextSerial (s : State) : Nat :=
  pickSerial (s.labels.queue.map LabelEntry.serial) (nLabels + 1) s.labels.serial

/-- The entry composed from a pocket's bundle (R157). -/
def composed (s : State) (p : Fin 12) (b : Bundle) : LabelEntry where
  serial := s.nextSerial
  pocket := p
  grade := b.grade
  name := ((s.table s.solver.active).grades[b.grade]).name
  species := s.labels.species
  lot := s.labels.lot
  pieces := b.pieces
  total := b.total
  area := labelArea b.total s.labels.width
  histogram := b.histogram
  closeReason := b.closeReason
  copies := s.labels.copies

/-- Composition: the entry joins the tail, the serial counter steps on, and a send may start
(R156, R157, R160). -/
def compose (p : Fin 12) (b : Bundle) (s : State) : State :=
  (s.modLabels (fun c => { c with
    queue := c.queue ++ [s.composed p b]
    serial := stepSerial s.nextSerial })).trySend

/-- The label queue has a free entry (R144, R158). -/
def labelRoom (s : State) : Bool := decide (s.labels.queue.length < nLabels)

/-- Removal of an entry at the clear of its pocket, with its effect on the channel (R170). -/
def removeEntry (serial : Nat) (s : State) : State :=
  match s.labelEntry serial with
  | none => s
  | some e =>
    let s' := s.modLabels (fun c => { c with queue := c.queue.filter (fun x => decide (x.serial ≠ serial)) })
    match e.status with
    | .sending => s'.modLabels (fun c => { c with current := none, stopSeen := false })
    | .awaitAck => (s'.modLabels (fun c => { c with ackTimer := none })).endAwait
    | .failed => if s.labels.faultEntry = some serial then s'.leaveFault else s'
    | .queued => s'
    | .printed => s'
    | .skipped => s'

end State

end Sys2Proof.Machine
end

