-- ==== Sys2Proof/Machine/Pockets.lean ====
section
/-! DEFINITION. The pocket unit: walks, fits, reservations, the full test and the closing test, clears
(R133 to R150). -/

namespace Sys2Proof.Machine

open Sys2Proof.Config

/-- A bundle pocket is accepting in EMPTY and FILLING (R133). -/
def Pocket.accepting (k : Pocket) : Bool := decide (k.state = .empty) || decide (k.state = .filling)

/-- A walk member of a grade, whatever its state (R134). -/
def Pocket.member (k : Pocket) (g : Fin 8) : Bool := !k.cfg.isBin && decide (k.cfg.grade = g)

/-- The gap of a row; without a bundle it is B (R80, R135, R136). -/
def Pocket.gap (k : Pocket) (r : Fin 12) : Nat :=
  match k.bundle with
  | none => k.cfg.rowLen
  | some b => k.cfg.rowLen - b.committed[r] - b.reserved[r]

/-- The configured rows (R135). -/
def Pocket.rows (k : Pocket) : List (Fin 12) := (List.finRange 12).filter (fun r => decide (r.val < k.cfg.rows))

/-- The better row for best fit: the first stays on an equal gap (R136). -/
def Pocket.tighter (k : Pocket) (best : Option (Fin 12)) (r : Fin 12) : Option (Fin 12) :=
  match best with
  | none => some r
  | some q => if k.gap r < k.gap q then some r else some q

/-- The fit of a length in a pocket: the row with the smallest gap that holds it, the lowest-numbered of
equals (R136). -/
def Pocket.fit (k : Pocket) (need : Nat) : Option (Fin 12) :=
  (k.rows.filter (fun r => decide (need ≤ k.gap r))).foldl k.tighter none

/-- The row of a pocket that a piece may be placed in: accepting, and a row fits (R134, R136). -/
def Pocket.place (k : Pocket) (len : Nat) : Option (Fin 12) :=
  if k.accepting then k.fit (len + k.cfg.joint) else none

/-- The bundle is full by its rows (R137). -/
def Pocket.rowsFull (k : Pocket) : Bool := k.rows.all (fun r => decide (k.gap r < k.cfg.closeGap))

/-- The bundle is full by its piece limit (R137). -/
def Pocket.piecesFull (k : Pocket) (b : Bundle) : Bool := decide (k.cfg.maxPieces ≤ b.pieces + b.reservations)

/-- The band of a length by seven thresholds (R84). -/
def bandOf (bands : Vector Nat 7) (len : Nat) : Nat := bands.toList.countP (fun t => decide (t ≤ len))

/-- The band as an index of the prices and of the histogram (R84). -/
def bandIdx (bands : Vector Nat 7) (len : Nat) : Fin 8 := Fin.ofNat 8 (bandOf bands len)

/-- A POCKET report on a pocket that stands as `k`, its bundle or bin count as given there (R151). Of a bundle
pocket without a bundle the piece count and the close reason are sent as 0, the model's choice (log 49). -/
def Pocket.report (k : Pocket) (p : Fin 12) (former new : PocketState) (event : PocketEvent) (serial : Nat) :
    Report :=
  .pocket p k.cfg.isBin former new event ((k.bundle.map Bundle.closeReason).getD .none)
    ((k.bundle.map Bundle.pieces).getD 0) serial k.count

namespace State

/-- A pocket's state changes and a POCKET report is offered (R151). -/
def movePocket (p : Fin 12) (new : PocketState) (event : PocketEvent) (serial : Nat) (s : State) : State :=
  let s' := s.modPocket p (fun k => { k with state := new })
  s'.offer ((s'.pocket p).report p (s.pocket p).state new event serial)

/-- The bundle of a pocket changed. -/
def modBundle (p : Fin 12) (f : Bundle → Bundle) (s : State) : State :=
  s.modPocket p (fun k => { k with bundle := k.bundle.map f })

/-- An alternate walk (R134) with its test, at most as many steps as the fuel. -/
def walk {β : Type} (s : State) (g : Fin 8) (test : Pocket → Option β) :
    Nat → List (Fin 12) → Option (Fin 12) → Option (Fin 12 × β)
  | 0, _, _ => none
  | _ + 1, _, none => none
  | n + 1, visited, some p =>
    if p ∈ visited ∨ (s.pocket p).member g = false then none
    else
      match test (s.pocket p) with
      | some x => some (p, x)
      | none => walk s g test n (p :: visited) (s.pocket p).cfg.alternate

/-- The primary pocket of a grade (R134). -/
def primary (s : State) (g : Fin 8) : Option (Fin 12) :=
  (List.finRange 12).find? (fun p => (s.pocket p).member g && decide ((s.pocket p).state ≠ .offline))

/-- The target walk (R134). -/
def target (s : State) (g : Fin 8) : Option (Fin 12) :=
  (s.walk g (fun k => if k.accepting then some () else none) nPockets [] (s.primary g)).map Prod.fst

/-- The placement walk at completion: a pocket and a row (R134, R136). -/
def placeAtCompletion (s : State) (g : Fin 8) (len : Nat) : Option (Fin 12 × Fin 12) :=
  s.walk g (fun k => k.place len) nPockets [] (s.primary g)

/-- The re-placement walk at sort commit, from the alternate of the present pocket (R134, R139). -/
def placeAtSort (s : State) (present : Fin 12) (g : Fin 8) (len : Nat) : Option (Fin 12 × Fin 12) :=
  s.walk g (fun k => k.place len) nPockets [present] (s.pocket present).cfg.alternate

/-- The bundle of a CLOSING pocket takes a label entry: composed, labelled, CLOSED (R144). -/
def labelBundle (p : Fin 12) (b : Bundle) (s : State) : State :=
  ((s.compose p b).modBundle p (fun x => { x with label := .labelled s.nextSerial })).movePocket p .closed .closed
    s.nextSerial

/-- The bundle is discarded: its record is deleted and the pocket enters EMPTY (R144). -/
def discardBundle (p : Fin 12) (s : State) : State :=
  (s.modPocket p (fun k => { k with state := .empty, bundle := none })).offer
    ((s.pocket p).report p (s.pocket p).state .empty .discarded 0)

/-- The pocket joins the label-wait set (R144). -/
def joinWait (p : Fin 12) (s : State) : State :=
  (s.modBundle p (fun b => { b with label := .waiting })).movePocket p .closing .labelWait 0

/-- The closing test (R144). -/
def closingTest (p : Fin 12) (s : State) : State :=
  match (s.pocket p).state, (s.pocket p).bundle with
  | .closing, some b =>
    if b.label = .none ∧ b.reservations = 0 then
      if b.pieces = 0 then s.discardBundle p
      else if s.labelRoom then s.labelBundle p b
      else s.joinWait p
    else s
  | _, _ => s

/-- The pocket is in the label-wait set (R145). -/
def waiting (s : State) (p : Fin 12) : Bool :=
  match (s.pocket p).bundle with
  | some b => decide ((s.pocket p).state = .closing) && decide (b.label = .waiting)
  | none => false

/-- A freed label entry is given to the lowest-numbered waiting pocket (R145); a bundle is handed over only while
the queue has a free entry (R157). -/
def grant (s : State) : State :=
  match (List.finRange 12).find? s.waiting with
  | none => s
  | some p =>
    match (s.pocket p).bundle with
    | some b => if s.labelRoom then s.labelBundle p b else s
    | none => s

/-- The bundle enters CLOSING with a reason, a POCKET report is offered, and the closing test follows
(R137, R144, R146). -/
def closeBundle (p : Fin 12) (reason : CloseReason) (s : State) : State :=
  ((s.modBundle p (fun b => { b with closeReason := reason })).movePocket p .closing .closing 0).closingTest p

/-- The full test after a reservation into a FILLING bundle (R137). -/
def fullTest (p : Fin 12) (s : State) : State :=
  match (s.pocket p).state, (s.pocket p).bundle with
  | .filling, some b =>
    if (s.pocket p).rowsFull then s.closeBundle p .full
    else if (s.pocket p).piecesFull b then s.closeBundle p .maxPieces
    else s
  | _, _ => s

/-- An EMPTY pocket opens its bundle (R135). -/
def openBundle (p : Fin 12) (s : State) : State :=
  if (s.pocket p).state = .empty then
    (s.modPocket p (fun k => { k with bundle := some { grade := k.cfg.grade } })).movePocket p .filling .opened 0
  else s

/-- A reservation for a record in a row of a pocket: the placement and the disposition POCKET are
written in the same event, and the full test is applied (R7, R136, R137). -/
def reserve (i : Fin 64) (p r : Fin 12) (len : Nat) (s : State) : State :=
  let amount := len + (s.pocket p).cfg.joint
  (((s.openBundle p).modBundle p (fun b => { b with
      reserved := b.reserved.set r (b.reserved[r] + amount)
      reservations := b.reservations + 1 })).writeRecord i (fun x => { x with
        placement := some ⟨p, r, amount⟩
        disp := .pocket p })).fullTest p

/-- A reservation taken out of its bundle row (R138). -/
def unreserve (pl : Placement) (s : State) : State :=
  s.modBundle pl.pocket (fun b => { b with
    reserved := b.reserved.set pl.row (b.reserved[pl.row] - pl.amount)
    reservations := b.reservations - 1 })

/-- A record's placement taken out, without the closing test (R138, R139). -/
def dropPlacement (i : Fin 64) (s : State) : State :=
  match (s.record i).placement with
  | none => s
  | some pl => (s.unreserve pl).writeRecord i (fun x => { x with placement := none })

/-- A hand-back, with the closing test of a CLOSING bundle (R7, R138). -/
def handBack (i : Fin 64) (s : State) : State :=
  match (s.record i).placement with
  | none => s
  | some pl => (s.dropPlacement i).closingTest pl.pocket

/-- A labelled bundle's pocket is cleared: the entry leaves the label queue with its effect on the
channel, the bundle record is deleted, the pocket enters EMPTY, and the freed entry is granted
(R145, R150, R158, R170). -/
def clearBundle (p : Fin 12) (serial : Nat) (s : State) : State :=
  let s' := s.removeEntry serial
  ((s'.modPocket p (fun k => { k with state := .empty, bundle := none })).offer
    ((s'.pocket p).report p (s.pocket p).state .empty .cleared 0)).grant

/-- A bin is cleared (R150). -/
def clearBin (p : Fin 12) (s : State) : State :=
  (s.modPocket p (fun k => { k with count := 0 })).movePocket p .empty .cleared 0

/-- The serial of a CLOSED pocket's label (R144). -/
def labelSerial (s : State) (p : Fin 12) : Nat :=
  match (s.pocket p).bundle with
  | some b => b.label.serial
  | none => 0

/-- The label entry of a pocket is PRINTED or SKIPPED (R150). -/
def labelDone (s : State) (p : Fin 12) : Bool :=
  match s.labelEntry (s.labelSerial p) with
  | some e => decide (e.status = .printed) || decide (e.status = .skipped)
  | none => false

/-- A clear edge at a pocket (R150). -/
def clearEdge (p : Fin 12) (s : State) : State :=
  match (s.pocket p).state with
  | .closed =>
    if s.labelDone p then s.clearBundle p (s.labelSerial p)
    else s.offer ((s.pocket p).report p .closed .closed .clearIgnored 0)
  | .filling => if (s.pocket p).cfg.isBin then s.clearBin p else s
  | .full => if (s.pocket p).cfg.isBin then s.clearBin p else s
  | _ => s

end State

end Sys2Proof.Machine
end

