-- ==== Sys2Proof/Machine/Solver.lean ====
section
/-! DEFINITION. The trim solver: the snapshot, the solve stages, the selection, the start of a solve and
the bank commit (R75, R77, R80 to R86, R89). -/

namespace Sys2Proof.Machine

open Sys2Proof.Config

/-! ### The stages of a solve (R81 to R86) -/

/-- The trim grid of a bank: 1 to 64 trims (R81). -/
def BankTable.grid (t : BankTable) : List Nat :=
  (List.range (min 63 ((t.tend - t.tmin) / t.step) + 1)).map (fun k => t.tmin + k * t.step)

/-- The candidates of a length: the pairs of trims that leave 150 mm or more (R81). -/
def BankTable.candidates (t : BankTable) (len : Nat) : List (Nat × Nat) :=
  (t.grid.flatMap (fun t1 => t.grid.map (fun t2 => (t1, t2)))).filter
    (fun c => decide (150 + c.1 + c.2 ≤ len))

/-- A defect lies in the piece of a candidate (R82). -/
def Defect.inPiece (d : Defect) (len t1 t2 : Nat) : Bool :=
  decide (d.start + t2 < len) && decide (t1 < d.start + d.extent)

/-- A face is in a rule's face set (R66). -/
def FaceSet.has : FaceSet → Face → Bool
  | .top, .top => true
  | .bottom, .bottom => true
  | .both, _ => true
  | _, _ => false

/-- A used rule of a grade matches a defect (R83). -/
def GradeRule.matches (r : GradeRule) (g : Fin 8) (d : Defect) : Bool :=
  r.used && decide (r.grade = g) && decide (d.cls &&& r.mask = r.cls &&& r.mask) && r.faces.has d.face
    && decide (d.severity.toNat ≤ r.maxSeverity.toNat)

/-- The accepting rule of a defect for a grade: the matching rule of lowest index (R83). -/
def BankTable.acceptor (t : BankTable) (g : Fin 8) (d : Defect) : Option (Fin 48) :=
  (List.finRange 48).find? (fun i => t.rules[i].matches g d)

/-- A grade admits a piece of a length with these defects in it (R83). -/
def BankTable.admits (t : BankTable) (g : Fin 8) (len : Nat) (ds : List Defect) : Bool :=
  let acc := ds.map (t.acceptor g)
  t.grades[g].defined && decide (t.grades[g].lmin ≤ len) && acc.all Option.isSome
    && (List.finRange 48).all (fun i => decide (acc.countP (fun a => decide (a = some i)) ≤ t.rules[i].maxCount))

/-- The grade of a piece: the lowest-numbered grade that admits it, X when none does (R83). -/
def BankTable.gradeOf (t : BankTable) (len : Nat) (ds : List Defect) : Option (Fin 8) :=
  (List.finRange 8).find? (fun g => t.admits g len ds)

/-- The value of a graded piece (R84). -/
def BankTable.value (t : BankTable) (g : Fin 8) (len : Nat) : Nat :=
  (t.prices[g])[bandIdx t.bands len] * len / 1000

/-- The fill bonus applies (R85). -/
def SnapTarget.applies (k : SnapTarget) (len : Nat) : Bool :=
  k.gaps.any (fun gap => decide (len + k.joint ≤ gap) && decide (gap ≤ len + k.joint + k.tolerance))

/-- A candidate valued: trims, length, grade, bonus value and bonus mark (R83 to R85). -/
structure Valued where
  t1    : Nat
  t2    : Nat
  len   : Nat
  grade : Option (Fin 8)
  value : Nat
  bonus : Bool
deriving DecidableEq, Repr

/-- A candidate of a record valued against its bank and its snapshot (R82 to R85). -/
def valueOf (t : BankTable) (snap : Vector (Option SnapTarget) 8) (len : Nat) (defects : List Defect)
    (c : Nat × Nat) : Valued :=
  let piece := len - c.1 - c.2
  match t.gradeOf piece (defects.filter (fun d => d.inPiece len c.1 c.2)) with
  | none => ⟨c.1, c.2, piece, none, 0, false⟩
  | some g =>
    let v := t.value g piece
    match snap[g] with
    | none => ⟨c.1, c.2, piece, some g, v, false⟩
    | some k =>
      if k.applies piece then ⟨c.1, c.2, piece, some g, v + v * k.bonus / 100, true⟩
      else ⟨c.1, c.2, piece, some g, v, false⟩

/-- A graded candidate ranks above another: higher value, then longer, then the smaller t1 (R86). -/
def Valued.beats (a b : Valued) : Bool :=
  decide (b.value < a.value) || (decide (a.value = b.value) &&
    (decide (b.len < a.len) || (decide (a.len = b.len) && decide (a.t1 < b.t1))))

/-- The better of the best so far and a graded candidate; an X candidate never wins (R86). -/
def Valued.better (best : Option Valued) (a : Valued) : Option Valued :=
  match a.grade with
  | none => best
  | some _ =>
    match best with
    | none => some a
    | some b => if a.beats b then some a else some b

/-- The selection of a solve: the best graded candidate; (tmin, tmin) with grade X when every candidate
is X; nothing when there is no candidate (R86, R88). -/
def select (t : BankTable) (snap : Vector (Option SnapTarget) 8) (len : Nat) (defects : List Defect) :
    Option Valued :=
  match t.candidates len with
  | [] => none
  | cs =>
    match (cs.map (valueOf t snap len defects)).foldl Valued.better none with
    | some v => some v
    | none => some ⟨t.tmin, t.tmin, len - t.tmin - t.tmin, none, 0, false⟩

namespace State

/-- The trim solver changed. -/
def modSolver (f : Solver → Solver) (s : State) : State := { s with solver := f s.solver }

/-- The snapshot of a grade's target pocket (R80). -/
def snapTarget (s : State) (g : Fin 8) : Option SnapTarget :=
  (s.target g).map (fun p =>
    let k := s.pocket p
    ⟨p, k.cfg.joint, k.cfg.bonus, k.cfg.tolerance, k.rows.map k.gap⟩)

/-- The snapshot at the start of a solve (R80). -/
def snapshot (s : State) : Vector (Option SnapTarget) 8 := Vector.ofFn s.snapTarget

/-- The IDLE solver takes the head of the solve queue in RUN or DRAIN (R77). -/
def solverNext (s : State) : State :=
  match s.solver.flight, s.solver.queue with
  | none, i :: rest =>
    if s.running then
      (s.modSolver (fun v => { v with queue := rest, flight := some ⟨i, s.snapshot⟩ })).writeRecord i
        (fun r => { r with solve := .solving })
    else s
  | _, _ => s

/-- The solver is solving a record (R77). -/
def inFlight (s : State) (i : Fin 64) : Bool :=
  match s.solver.flight with
  | some f => decide (f.index = i)
  | none => false

/-- A record leaves the solver: its place in the queue is removed, and a solve in flight on it is
abandoned, after which the solver takes the next head (R16, R78, R79). -/
def solverForget (i : Fin 64) (s : State) : State :=
  let s' := s.modSolver (fun v => { v with queue := v.queue.filter (fun j => decide (j ≠ i)) })
  if s.inFlight i then (s'.modSolver (fun v => { v with flight := none })).solverNext else s'

/-- A record joins the solve queue (R61, R76, R77). -/
def solverJoin (i : Fin 64) (s : State) : State :=
  ((s.modSolver (fun v => { v with queue := v.queue ++ [i] })).writeRecord i
    (fun r => { r with solve := .queued })).solverNext

/-- The shadow bank becomes active (R74, R75). -/
def swapBanks (s : State) : State :=
  s.modSolver (fun v => { v with active := v.active.other, commitPending := false })

/-- A pending commit takes effect (R75). -/
def bankCommit (s : State) : State := if s.solver.commitPending then s.swapBanks else s

/-- The slack of a solution, in millimetres, saturating at 65535 (R89). -/
def slack (s : State) (i : Fin 64) : Nat :=
  let r := s.record i
  let commit := (s.sec .s2).cfg.commit
  match r.loc with
  | .s1 =>
    let u := s.sec .s1
    min 65535 (u.cfg.distance - u.cfg.toMm (u.counter - r.lead).toNat + commit)
  | .s2 =>
    let u := s.sec .s2
    min 65535 (commit - u.cfg.toMm (u.counter - r.lead).toNat)
  | _ => 0

end State

end Sys2Proof.Machine
end

