-- ==== Sys2Proof/Machine/Records.lean ====
section
/-! DEFINITION. Disposition writes, the drain test, release, loss and allocation of records
(R6, R7, R10, R13 to R17, R37, R62, R177). -/

namespace Sys2Proof.Machine

open Sys2Proof.Config

/-- The rank of a disposition kind (R6). -/
def Disposition.rank : Disposition → Nat
  | .undecided => 0
  | .pocket _ => 1
  | .bin _ _ => 2
  | .runoff _ => 3

/-- The reason of a disposition (R6). -/
def Disposition.reason : Disposition → Reason
  | .undecided => .none
  | .pocket _ => .none
  | .bin _ r => r
  | .runoff r => r

/-- Kinds BIN and RUNOFF, whose write hands back a placement (R7). -/
def Disposition.isBinOrRunoff : Disposition → Bool
  | .bin _ _ => true
  | .runoff _ => true
  | _ => false

/-- Whether a disposition write is taken over the current one (R6). -/
def Disposition.takes (current written : Disposition) : Bool :=
  match current with
  | .runoff _ => false
  | _ => decide (current.rank ≤ written.rank)

/-- One step of the tag counter (R10). -/
def stepTag (n : Nat) : Nat := if n = 65535 then 1 else n + 1

/-- The tag that an allocation gives: tags of live records are passed over (R10). -/
def pickTag (used : List Nat) : Nat → Nat → Nat
  | 0, n => n
  | fuel + 1, n => if n ∈ used then pickTag used fuel (stepTag n) else n

/-- What a PIECE or STRIP_FAULT report takes from a record (R17, 12.4). -/
def Record.info (r : Record) (row : Option (Fin 12)) : PieceInfo where
  tag := r.tag
  len := r.len
  eyeLength := r.eyeLength
  disp := r.disp
  row := row
  faults := r.faults
  top := r.top
  bottom := r.bottom
  profile := r.profile
  deviations := r.deviations
  solve := r.solve
  solution := r.solution
  bank := r.bank

namespace State

/-! ### Dispositions -/

/-- A disposition stored, handing back a present placement for kinds BIN and RUNOFF (R7). -/
def putDisposition (i : Fin 64) (d : Disposition) (s : State) : State :=
  let s' := s.writeRecord i (fun r => { r with disp := d })
  if d.isBinOrRunoff then s'.handBack i else s'

/-- A disposition write under the ranking (R6, R7); a blank record takes none (R1). -/
def writeDisposition (i : Fin 64) (d : Disposition) (s : State) : State :=
  if s.live i && (s.record i).disp.takes d then s.putDisposition i d else s

/-- BIN with the regrade bin of the line settings (R196). -/
def regrade (s : State) (r : Reason) : Disposition := .bin s.run.settings.regrade r

/-- BIN with the overflow bin of the line settings (R196). -/
def overflowBin (s : State) (r : Reason) : Disposition := .bin s.run.settings.overflow r

/-- A strip is unscanned: BIN regrade, unscanned, under the ranking; the counter rises when the write is
taken on a record whose reason was not already unscanned (R62). -/
def markUnscanned (i : Fin 64) (s : State) : State :=
  let d := (s.record i).disp
  let s' := s.writeDisposition i (s.regrade .unscanned)
  if s.live i && d.takes (s.regrade .unscanned) && decide (d.reason ≠ .unscanned) then
    s'.modCounters (fun c => { c with unscanned := c.unscanned + 1 })
  else s'

/-! ### Run-state changes that a release can bring (R177) -/

/-- A change of run state with its RUN report (R173). -/
def reportRun (former : RunState) (cause : RunCause) (released : Nat) (s : State) : State :=
  s.offer (.run former s.run.state cause released)

/-- Run control's state changed. -/
def modRun (f : RunControl → RunControl) (s : State) : State := { s with run := f s.run }

/-- The blocks at entry to CONFIG or HALT: gauge IDLE, no awaiting-tail record, last retracts none
(R38, R49, R113). -/
def stopFollowing (s : State) : State :=
  ({ s with gauge := .idle }.modSecs (fun u => { u with awaiting := none })).modCuts
    (fun c => { c with lastTongue := none, lastGroove := none })

/-- Every list S1 to S4 and every schedule is empty (R177). -/
def drained (s : State) : Bool :=
  s.liveList.isEmpty && (s.sec .s1).schedule.isEmpty && (s.sec .s2).schedule.isEmpty
    && (s.sec .s3).schedule.isEmpty && (s.sec .s4).schedule.isEmpty

/-- The drain test: in DRAIN, with all lists and schedules empty, the line enters CONFIG, a pending bank
commit takes effect, and a RUN report of cause drained is offered (R75, R177). -/
def drainTest (s : State) : State :=
  if s.run.state = .drain ∧ s.drained = true then
    (((s.modRun (fun r => { r with state := .config })).bankCommit).stopFollowing).reportRun .drain .drained 0
  else s

/-! ### Release (R16) -/

/-- Every entry naming a record removed from every schedule (R16, R35). -/
def removeEntries (i : Fin 64) (s : State) : State :=
  s.modSecs (fun u => { u with schedule := u.schedule.filter (fun e => decide (e.index ≠ i)) })

/-- A record leaves its section's list, the cut set and the run-off watch, is made blank, and joins the
tail of FREE (R16, R39, R43). -/
def toFree (i : Fin 64) (s : State) : State :=
  { s with
    pool := { s.pool with
      records := s.pool.records.set i {}
      onSec := Vector.ofFn (fun x => s.pool.onSec[x].filter (fun j => decide (j ≠ i)))
      free := s.pool.free ++ [i] }
    cuts := { s.cuts with
      cutSet := s.cuts.cutSet.filter (fun j => decide (j ≠ i))
      watch := s.cuts.watch.filter (fun e => decide (e.index ≠ i)) } }

/-- Release: the solve, the schedule entries, the placement and the list place are undone, the record
joins FREE, and the low-records and drain tests follow (R16, R177, R182). A blank record is not
released (R1). -/
def release (i : Fin 64) (s : State) : State :=
  if s.live i then
    (((((s.solverForget i).removeEntries i).handBack i).toFree i).lowAfterRelease).drainTest
  else s

/-- The lost count of a section rises (R184). -/
def countLost (x : Sec) (s : State) : State :=
  s.modCounters (fun c => { c with lost := c.lost.set x.idx (c.lost[x.idx] + 1) })

/-- A record is lost on a section: RUNOFF, lost, whatever the disposition; the lost count; STRIP_FAULT;
release (R6, R17, R37, R43, R44). -/
def lose (i : Fin 64) (x : Sec) (s : State) : State :=
  let s' := (s.putDisposition i (.runoff .lost)).countLost x
  (s'.offer (.lost x ((s'.record i).info none))).release i

/-! ### Allocation (R10, R13) -/

/-- The tags of the live records. -/
def liveTags (s : State) : List Nat := s.liveList.map (fun i => (s.record i).tag)

/-- The tag of the next allocation (R10). -/
def nextTag (s : State) : Nat := pickTag s.liveTags 65 s.pool.tagCounter

/-- Allocation of the head of FREE for a strip (R13): tag, L, lead count, the active bank, and the scan
state given; the record joins the tail of S1; the face tallies of its index are cleared (R50, R55);
the low-records test follows (R182). -/
def allocate (i : Fin 64) (rest : List (Fin 64)) (len : Nat) (lead : Pos) (d : Disposition) (p : ProfileStatus)
    (s : State) : State :=
  ({ s with
    pool := { s.pool with
      records := s.pool.records.set i
        { tag := s.nextTag, loc := .s1, bank := s.solver.active, len := len, lead := lead, disp := d, profile := p }
      free := rest
      onSec := s.pool.onSec.set 0 (s.pool.onSec[0] ++ [i])
      tagCounter := stepTag s.nextTag }
    scan := { s.scan with tallies := s.scan.tallies.set i {} } }).lowAfterAllocation

end State

end Sys2Proof.Machine
end

