-- ==== Sys2Proof/Machine/Schedule.lean ====
section
/-! DEFINITION. The action schedules: order, insertion, firing; saw cuts, kicks and target requests; the
suspect mark and missed cuts (R31 to R35, R40, R108, R109, R142, R143). -/

namespace Sys2Proof.Machine

open Sys2Proof.Config

/-- The forward distance from a counter to an entry's due position (R31). -/
def Entry.distance (c : Pos) (e : Entry) : Nat := (e.due - c).toNat

/-- An entry put at its place by forward distance, after those of equal due position (R31). -/
def insertEntry (c : Pos) (e : Entry) : List Entry → List Entry
  | [] => [e]
  | x :: xs => if x.distance c ≤ e.distance c then x :: insertEntry c e xs else e :: x :: xs

/-- The piece length of a record: its solution's len (R112, R136, R142). -/
def Record.pieceLen (r : Record) : Nat :=
  match r.solution with
  | some v => v.len
  | none => r.len

/-- The grade of a record's solution (R136). -/
def Record.grade (r : Record) : Option (Fin 8) :=
  match r.solution with
  | some v => v.grade
  | none => none

namespace State

/-! ### Removal of entries -/

/-- Entries of one section's schedule kept by a test (R35); the drain test follows (R177). -/
def keepEntries (x : Sec) (keep : Entry → Bool) (s : State) : State :=
  (s.modSec x (fun u => { u with schedule := u.schedule.filter keep })).drainTest

/-- One end head's entries of a record withdrawn from S3 when its advance is still pending (R40, R109). -/
def withdrawHead (i : Fin 64) (head : Option (Fin 6)) (s : State) : State :=
  match head with
  | none => s
  | some p =>
    if (s.sec .s3).schedule.any (fun e => decide (e.index = i) && decide (e.action = .pairTarget p .advance)) then
      s.keepEntries .s3 (fun e => !(decide (e.index = i) &&
        (decide (e.action = .pairTarget p .advance) || decide (e.action = .pairTarget p .retract))))
    else s

/-- Both heads looked at in turn (R40, R109). -/
def withdrawHeads (i : Fin 64) (s : State) : State :=
  (s.withdrawHead i s.cuts.tonguePair).withdrawHead i s.cuts.groovePair

/-- A record is marked suspect (R40). -/
def markSuspect (i : Fin 64) (s : State) : State :=
  let s' := if (s.record i).faults.suspect then s else s.modCounters (fun c => { c with suspect := c.suspect + 1 })
  (((s'.writeRecord i (fun r => { r with faults := { r.faults with suspect := true } })).writeDisposition i
    (.runoff .suspect)).withdrawHeads i).keepEntries .s4 (fun e => decide (e.index ≠ i))

/-- A missed cut (R109). -/
def missedCut (i : Fin 64) (s : State) : State :=
  let s1 := if (s.record i).faults.cutMissed then s else s.modCounters (fun c => { c with cutMissed := c.cutMissed + 1 })
  let s2 := s1.writeRecord i (fun r => { r with faults := { r.faults with cutMissed := true } })
  let s3 := if (s2.record i).sortCommitted then s2 else s2.writeDisposition i (s2.regrade .cutMissed)
  s3.withdrawHeads i

/-! ### Firing (R34) -/

/-- A saw cut falls due (R108): not tested on a line of an armed pair; made when the saw is READY; missed
otherwise. -/
def sawCut (i : Fin 64) (l : Fin 24) (s : State) : State :=
  match s.pairOf l with
  | some p => s.offer (.lineInPair (.unit .s2) (s.record i).tag l p)
  | none =>
    match s.out.saw with
    | none => (s.pulseRequest l).startSaw
    | some _ => s.missedCut i

/-- The kicked counter of a pocket rises (R184). -/
def countKick (p : Fin 12) (s : State) : State :=
  s.modCounters (fun c => { c with kicked := c.kicked.set p (c.kicked[p] + 1) })

/-- The band of a length by the bank active now (R67, R142). -/
def activeBand (s : State) (len : Nat) : Fin 8 := bandIdx (s.table s.solver.active).bands len

/-- A piece committed to its bundle (R142). -/
def commitPiece (pl : Placement) (len : Nat) (s : State) : State :=
  s.modBundle pl.pocket (fun b => { b with
    reserved := b.reserved.set pl.row (b.reserved[pl.row] - pl.amount)
    committed := b.committed.set pl.row (b.committed[pl.row] + pl.amount)
    pieces := b.pieces + 1
    reservations := b.reservations - 1
    total := b.total + len
    histogram := b.histogram.set (s.activeBand len) (b.histogram[s.activeBand len] + 1) })

/-- The kick of a POCKET piece: commit, PIECE report, release, closing test (R17, R142). The closing test is the last act
(log 11), so the tests that the release brings, low records and drain with a pending bank commit, go before it, and a label
then composed takes its names from the bank that the drain test made active: the model's choice (log 52). -/
def kickBundle (i : Fin 64) (pl : Placement) (s : State) : State :=
  let s' := ((s.commitPiece pl (s.record i).pieceLen).writeRecord i (fun r => { r with placement := none })).countKick
    pl.pocket
  ((s'.offer (.piece ((s'.record i).info (some pl.row)))).release i).closingTest pl.pocket

/-- A bin's state follows its count after a kick (R143). The report of a move from EMPTY to FILLING carries the event
"opened", the model's choice (log 43). -/
def binFollows (p : Fin 12) (s : State) : State :=
  let k := s.pocket p
  match k.state with
  | .empty =>
    if k.cfg.capacity ≤ k.count then s.movePocket p .full .full 0 else s.movePocket p .filling .opened 0
  | .filling => if k.cfg.capacity ≤ k.count then s.movePocket p .full .full 0 else s
  | .stalled =>
    if k.cfg.capacity ≤ k.count then s.modPocket p (fun x => { x with prior := some .full })
    else s.modPocket p (fun x => { x with prior := if x.prior = some .empty then some .filling else x.prior })
  | _ => s

/-- The kick of a BIN piece: count, PIECE report, release, the bin's state (R17, R143). The bin's state follows last
(log 11), after the tests that the release brings, the model's choice (log 52). -/
def kickBin (i : Fin 64) (p : Fin 12) (s : State) : State :=
  let s' := (s.modPocket p (fun k => { k with count := k.count + 1 })).countKick p
  ((s'.offer (.piece ((s'.record i).info none))).release i).binFollows p

/-- The pocket unit takes the kick of a record by its disposition (R142, R143). -/
def kickTaken (i : Fin 64) (s : State) : State :=
  match (s.record i).disp, (s.record i).placement with
  | .pocket _, some pl => s.kickBundle i pl
  | .bin (some p) _, _ => s.kickBin i p
  | _, _ => s

/-- A kick entry fires: the pulse request, then the kick whether or not the pulse was taken
(R121, R142). On a kicker line of an armed pair the PROTECT report therefore goes before the PIECE report, the model's
choice (log 51). -/
def kick (i : Fin 64) (l : Fin 24) (s : State) : State := (s.firedPulse .s4 (s.record i).tag l).kickTaken i

/-- An entry fires: it leaves the schedule and hands its action to the output stage (R34); line pulses are
saw cuts on S2 and kicks on S4 (R31). The drain test follows (R177). -/
def fireEntry (x : Sec) (e : Entry) (s : State) : State :=
  let s' := s.modSec x (fun u => { u with schedule := u.schedule.erase e })
  (match e.action with
    | .pairTarget p c => s'.targetRequest (.unit x) (s'.record e.index).tag p c
    | .linePulse l =>
      match x with
      | .s2 => s'.sawCut e.index l
      | .s4 => s'.kick e.index l
      | .s1 => s'.firedPulse x (s'.record e.index).tag l
      | .s3 => s'.firedPulse x (s'.record e.index).tag l).drainTest

/-! ### Insertion (R32) -/

/-- The first entry of a record on a section that is reached (R32, R34). -/
def reachedOf (s : State) (x : Sec) (i : Fin 64) : Option Entry :=
  (s.sec x).schedule.find? (fun e => decide (e.index = i) && s.isReached x e.due)

/-- A record's entries already reached fire in schedule order (R32). -/
def fireReached (x : Sec) (i : Fin 64) : Nat → State → State
  | 0, s => s
  | n + 1, s =>
    match s.reachedOf x i with
    | none => s
    | some e => fireReached x i n (s.fireEntry x e)

/-- The schedule of a section has room for entries (R32). -/
def scheduleRoom (s : State) (x : Sec) (n : Nat) : Bool := decide (n + (s.sec x).schedule.length ≤ nSchedule)

/-- All the entries of an insertion request that finds room: each in its place, then those already reached
fire (R31, R32). -/
def insertEntries (x : Sec) (i : Fin 64) (es : List Entry) (s : State) : State :=
  fireReached x i 4
    (s.modSec x (fun u => { u with schedule := es.foldl (fun l e => insertEntry u.counter e l) u.schedule }))

end State

end Sys2Proof.Machine
end

