-- ==== Sys2Proof/Machine/Cuts.lean ====
section
/-! DEFINITION. The commit event and decision, end matching, the sort commit, and the length check
(R39, R41, R42, R63, R78, R105, R106, R111 to R114, R139 to R141). -/

namespace Sys2Proof.Machine

open Sys2Proof.Config

namespace State

/-! ### The commit event on S2 -/

/-- A record becomes MISSED: out of the solver, counted, BIN regrade under the ranking (R78). -/
def markMissed (i : Fin 64) (s : State) : State :=
  (((s.solverForget i).writeRecord i (fun r => { r with solve := .missed })).modCounters
    (fun c => { c with missed := c.missed + 1 })).writeDisposition i (s.regrade .missed)

/-- The trim solver's part of the commit event: a QUEUED or SOLVING record is MISSED (R78). -/
def commitSolver (i : Fin 64) (s : State) : State :=
  match (s.record i).solve with
  | .queued => s.markMissed i
  | .solving => s.markMissed i
  | _ => s

/-- The scan intake's part of the commit event (R63). -/
def commitScan (i : Fin 64) (s : State) : State :=
  if (s.record i).solve = .none ∧ (s.record i).disp = .undecided then s.markUnscanned i else s

/-- A record is decided cut: SOLVED, and POCKET or BIN overflow for no fit (R105). -/
def decidedCut (s : State) (i : Fin 64) : Bool :=
  decide ((s.record i).solve = .solved) &&
    (match (s.record i).disp with
      | .pocket _ => true
      | .bin _ .noFit => true
      | _ => false)

/-- A saw-cut entry at a travel of a record's lead on S2 (R106). -/
def sawEntry (s : State) (i : Fin 64) (l : Fin 24) (mm : Nat) : Entry :=
  ⟨addCounts (s.record i).lead ((s.sec .s2).cfg.toCounts mm), .linePulse l, i, none⟩

/-- The saw-cut entries of a record: a trim of 0 needs none (R106). -/
def sawEntries (s : State) (i : Fin 64) : List Entry :=
  match (s.record i).solution, s.cuts.sawLine with
  | some v, some l =>
    (if v.t1 = 0 then [] else [s.sawEntry i l (s.cuts.sawPos + v.t1)])
      ++ (if v.t2 = 0 then [] else [s.sawEntry i l (s.cuts.sawPos + (s.record i).len - v.t2)])
  | _, _ => []

/-- Cut execution's commit decision (R105, R106, R33). -/
def commitDecision (i : Fin 64) (s : State) : State :=
  if s.decidedCut i then
    match s.sawEntries i with
    | [] => s
    | es =>
      if s.scheduleRoom .s2 es.length then
        (s.modCuts (fun c => { c with cutSet := c.cutSet ++ [i] })).insertEntries .s2 i es
      else s.writeDisposition i (s.regrade .scheduleFull)
  else s

/-- The commit event of a record (R41). -/
def commitEvent (i : Fin 64) (s : State) : State :=
  (((s.writeRecord i (fun r => { r with committed := true })).commitSolver i).commitScan i).commitDecision i

/-! ### End matching at the handoff to S3 -/

/-- An end head in use is a head whose pair is named and armed (R104). -/
def headInUse (s : State) (head : Option (Fin 6)) : Option (Fin 6) :=
  match head with
  | none => none
  | some p => if (s.pair p).isSome then some p else none

/-- A position of a record's lead on S3 (R112). -/
def headPos (s : State) (i : Fin 64) (mm : Nat) : Pos := addCounts (s.record i).lead ((s.sec .s3).cfg.toCounts mm)

/-- The advance and retract positions of the tongue head (R112). -/
def tonguePos (s : State) (i : Fin 64) : Pos × Pos :=
  (s.headPos i (s.cuts.hT - s.cuts.aT), s.headPos i (s.cuts.hT + s.cuts.rT))

/-- The advance and retract positions of the groove head (R112). -/
def groovePos (s : State) (i : Fin 64) : Pos × Pos :=
  let len := (s.record i).pieceLen
  (s.headPos i (s.cuts.hG - s.cuts.aG + len), s.headPos i (s.cuts.hG + s.cuts.rG + len))

/-- An advance position is in conflict with a head's last retract (R113). -/
def headConflict (s : State) (last : Option Pos) (advance : Pos) : Bool :=
  match last with
  | none => false
  | some r =>
    let d := (advance - r).toNat
    decide (8388608 ≤ d) || decide (d < (s.sec .s3).cfg.toCounts s.cuts.clearance)

/-- The two entries of a head for a record (R112). At equal due positions the advance stands before the retract, the
model's choice (log 42). -/
def headEntries (i : Fin 64) (p : Fin 6) (at' : Pos × Pos) : List Entry :=
  [⟨at'.1, .pairTarget p .advance, i, none⟩, ⟨at'.2, .pairTarget p .retract, i, none⟩]

/-- All the end-head entries of a record (R112, R114). At equal due positions the tongue's stand before the groove's, the
model's choice (log 42). -/
def matchEntries (s : State) (i : Fin 64) : List Entry :=
  (match s.headInUse s.cuts.tonguePair with
    | some p => headEntries i p (s.tonguePos i)
    | none => [])
  ++ (match s.headInUse s.cuts.groovePair with
    | some p => headEntries i p (s.groovePos i)
    | none => [])

/-- A head in use is in conflict (R113). -/
def matchConflict (s : State) (i : Fin 64) : Bool :=
  ((s.headInUse s.cuts.tonguePair).isSome && s.headConflict s.cuts.lastTongue (s.tonguePos i).1)
    || ((s.headInUse s.cuts.groovePair).isSome && s.headConflict s.cuts.lastGroove (s.groovePos i).1)

/-- An end match skipped, for a conflict or a refused insertion (R33, R114). -/
def skipEndMatch (i : Fin 64) (s : State) : State :=
  let s' := if (s.record i).faults.endMatchSkipped then s
    else s.modCounters (fun c => { c with endSkipped := c.endSkipped + 1 })
  (s'.writeRecord i (fun r => { r with faults := { r.faults with endMatchSkipped := true } })).writeDisposition i
    (s.regrade .endMatchSkipped)

/-- The last retracts take the new retract positions of the heads in use (R113). -/
def setLastRetracts (i : Fin 64) (s : State) : State :=
  s.modCuts (fun c => { c with
    lastTongue := if (s.headInUse c.tonguePair).isSome then some (s.tonguePos i).2 else c.lastTongue
    lastGroove := if (s.headInUse c.groovePair).isSome then some (s.groovePos i).2 else c.lastGroove })

/-- The end-match decision at the handoff to S3 (R111, R114). -/
def endMatch (i : Fin 64) (s : State) : State :=
  match (s.record i).disp with
  | .pocket _ =>
    match s.matchEntries i with
    | [] => s
    | es =>
      if s.matchConflict i then s.skipEndMatch i
      else if s.scheduleRoom .s3 es.length then (s.setLastRetracts i).insertEntries .s3 i es
      else s.skipEndMatch i
  | _ => s

/-! ### The sort commit on S4 -/

/-- The kick of a record scheduled for a pocket; a refused insertion is RUNOFF, schedule full
(R33, R141). -/
def scheduleKick (i : Fin 64) (p : Fin 12) (bin : Option (Fin 12)) (s : State) : State :=
  match (s.pocket p).cfg.kicker with
  | none => s
  | some l =>
    let k := (s.pocket p).cfg
    let due := addCounts (s.record i).lead ((s.sec .s4).cfg.toCounts (k.position + k.offset))
    if s.scheduleRoom .s4 1 then s.insertEntries .s4 i [⟨due, .linePulse l, i, bin⟩]
    else s.writeDisposition i (.runoff .scheduleFull)

/-- A bin is accepting at sort commit (R140). -/
def binAccepting (s : State) (p : Fin 12) : Bool :=
  (s.pocket p).cfg.isBin && (s.pocket p).accepting
    && decide ((s.pocket p).count + s.pendingKicks p < (s.pocket p).cfg.capacity)

/-- A BIN record at sort commit (R140). -/
def sortBin (i : Fin 64) (s : State) : State :=
  match (s.record i).disp with
  | .bin (some p) _ =>
    if s.binAccepting p then s.scheduleKick i p (some p) else s.writeDisposition i (.runoff .overflowFull)
  | .bin none _ => s.writeDisposition i (.runoff .overflowFull)
  | _ => s

/-- A placement moved from a pocket that no longer takes pieces (R139). -/
def replacePlacement (i : Fin 64) (pl : Placement) (s : State) : State :=
  let s' := s.dropPlacement i
  let len := (s.record i).pieceLen
  match (s.record i).grade.bind (fun g => s'.placeAtSort pl.pocket g len) with
  | some (p, r) => (s'.reserve i p r len).scheduleKick i p none
  | none => (s'.writeDisposition i (s.overflowBin .noFit)).sortBin i

/-- A POCKET record at sort commit (R139). -/
def sortPocket (i : Fin 64) (pl : Placement) (s : State) : State :=
  match (s.pocket pl.pocket).state with
  | .filling => s.scheduleKick i pl.pocket none
  | .closing => s.scheduleKick i pl.pocket none
  | _ => s.replacePlacement i pl

/-- The sort commit event of a record (R42, R139, R140). -/
def sortCommit (i : Fin 64) (s : State) : State :=
  let s' := s.writeRecord i (fun r => { r with sortCommitted := true })
  match (s'.record i).disp, (s'.record i).placement with
  | .pocket _, some pl => s'.sortPocket i pl
  | .bin _ _, _ => s'.sortBin i
  | _, _ => s'

/-! ### The length check -/

/-- The expected length of a record at the eye of a section (R39). -/
def expectedLen (s : State) (i : Fin 64) (x : Sec) : Nat :=
  match x with
  | .s3 => if i ∈ s.cuts.cutSet then (s.record i).pieceLen else (s.record i).len
  | .s4 => if i ∈ s.cuts.cutSet then (s.record i).pieceLen else (s.record i).len
  | _ => (s.record i).len

/-- The length check: a difference above the tolerance marks the record suspect (R39, R40). -/
def lengthCheck (i : Fin 64) (x : Sec) (measured : Nat) (s : State) : State :=
  let e := s.expectedLen i x
  if s.run.settings.tolerance < (measured - e) + (e - measured) then s.markSuspect i else s

end State

end Sys2Proof.Machine
end

