-- ==== Sys2Proof/Machine/Sections.lean ====
section
/-! DEFINITION. The gauge, the eyes, the handoffs, the tests of reached positions, and the encoders
(R22 to R29, R36 to R38, R41 to R48, R50, R51). -/

namespace Sys2Proof.Machine

open Sys2Proof.Config

/-! ### Windows and deadlines (R36, R37, R44) -/

/-- The lower bound of a section's window, in counts (R36). -/
def SectionCfg.lo (c : SectionCfg) : Nat := c.toCounts (c.distance - c.window)

/-- The upper bound of a section's window, in counts (R36). -/
def SectionCfg.hi (c : SectionCfg) : Nat := c.toCounts (c.distance + c.window)

namespace State

/-! ### The gauge and the announcement of a strip -/

/-- A record's SCAN_START joins the outbound queue; with 8 frames held, the profile status is UNCHECKED
and the strip is unscanned (R51). -/
def announce (i : Fin 64) (s : State) : State :=
  if s.scan.starts.length < nScanStarts then
    { s with scan := { s.scan with starts := s.scan.starts ++ [⟨(s.record i).tag, (s.record i).len⟩] } }
  else (s.writeRecord i (fun r => { r with profile := .unchecked })).markUnscanned i

/-- A face whose head is DEGRADED at allocation is marked DEGRADED, and the strip is unscanned (R50). -/
def degradedFaces (i : Fin 64) (s : State) : State :=
  let s1 := if s.scan.top.degraded then (s.writeRecord i (fun r => { r with top := .degraded })).markUnscanned i else s
  if s.scan.bottom.degraded then (s1.writeRecord i (fun r => { r with bottom := .degraded })).markUnscanned i else s1

/-- The profile status of a strip to be scanned, at allocation (R50). -/
def startProfile (s : State) : ProfileStatus :=
  if s.check.enable && !s.scan.profile.degraded then .awaiting else .unchecked

/-- The gauged and untracked counters (R14, R47). -/
def countGauged (s : State) : State := s.modCounters (fun c => { c with gauged := c.gauged + 1 })

/-- A gauged strip finds FREE empty (R14). -/
def countUntracked (s : State) : State := s.modCounters (fun c => { c with untracked := c.untracked + 1 })

/-- A measured strip that is not noise (R47, R50). -/
def gaugedStrip (mm : Nat) (lead : Pos) (s : State) : State :=
  let s' := s.countGauged
  match s'.pool.free with
  | [] => s'.countUntracked
  | i :: rest =>
    if mm < 150 then
      (s'.allocate i rest mm lead (.runoff .undersize) .unchecked).modCounters
        (fun c => { c with undersize := c.undersize + 1 })
    else ((s'.allocate i rest (min 3000 mm) lead .undecided s'.startProfile).degradedFaces i).announce i

/-- A lead edge at eye G (R45): the measurement starts, and a pending bank commit takes effect. -/
def gaugeLead (pos : Pos) (s : State) : State :=
  { s with gauge := .measuring pos (addCounts pos ((s.sec .s1).cfg.toCounts 3000 + 1)) }.bankCommit

/-- A tail edge at eye G (R46). -/
def gaugeTail (pos : Pos) (s : State) : State :=
  match s.gauge with
  | .idle => s
  | .overlong => { s with gauge := .idle }
  | .measuring lead _ =>
    let s' := { s with gauge := .idle }
    let n := (pos - lead).toNat
    if 8388608 ≤ n then s'
    else
      let mm := (s.sec .s1).cfg.toMm n
      if mm < 20 then s' else s'.gaugedStrip mm lead

/-- The overlength position is reached while MEASURING (R48). -/
def overlength (lead : Pos) (s : State) : State :=
  let s' := { s with gauge := .overlong }.countGauged
  match s'.pool.free with
  | [] => s'.countUntracked
  | i :: rest =>
    (s'.allocate i rest 3000 lead (.runoff .overlength) .unchecked).modCounters
      (fun c => { c with overlength := c.overlength + 1 })

/-! ### Handoff (R36, R37) -/

/-- The handoff deadline of a record on S1, S2 or S3 (R37). -/
def deadline (s : State) (x : Sec) (i : Fin 64) : Pos := addCounts (s.record i).lead ((s.sec x).cfg.hi + 1)

/-- The travel of a record on a section (R26). -/
def travel (s : State) (x : Sec) (i : Fin 64) : Nat := ((s.sec x).counter - (s.record i).lead).toNat

/-- A stray at the eye of a section (R36). -/
def stray (x : Sec) (k : Fin 3) (s : State) : State :=
  ((s.modCounters (fun c => { c with stray := c.stray.set k (c.stray[k] + 1) })).offer (.stray x)).modSec x
    (fun u => { u with awaiting := none })

/-- A matched lead edge: the head moves to the tail of the receiving section and takes the edge's position
as its lead count, and the eye awaits its tail (R15, R36); at eye M the end-match decision follows
(R111). -/
def matched (from' x : Sec) (i : Fin 64) (pos : Pos) (s : State) : State :=
  let s1 := (s.setList from' ((s.list from').erase i))
  let s2 := (s1.setList x (s1.list x ++ [i])).writeRecord i (fun r => { r with loc := locOf x, lead := pos })
  let s3 := s2.modSec x (fun u => { u with awaiting := some ⟨i, (s.record i).tag, pos⟩ })
  if x = .s3 then s3.endMatch i else s3

/-- A lead edge at the eye of a section, tested against the head of the section before (R36). For a head above the
window the deadline rule is applied first, by its reached test (R37): a head whose deadline is reached is lost, and the
edge is tested against the new head. A head whose travel has wrapped behind its lead count in a reversal is not lost,
and the edge is a stray (log 40). -/
def handoffEdge (from' x : Sec) (k : Fin 3) (pos : Pos) : Nat → State → State
  | 0, s => s.stray x k
  | n + 1, s =>
    match s.list from' with
    | [] => s.stray x k
    | i :: _ =>
      if s.travel from' i < (s.sec from').cfg.lo then s.stray x k
      else if s.travel from' i ≤ (s.sec from').cfg.hi then s.matched from' x i pos
      else if s.isReached from' (s.deadline from' i) then handoffEdge from' x k pos n (s.lose i from')
      else s.stray x k

/-! ### Tail edges at T, M and K (R38, R43) -/

/-- At eye K the record joins the run-off watch, at most once (R43). -/
def joinWatch (i : Fin 64) (pos : Pos) (s : State) : State :=
  if s.cuts.watch.any (fun e => decide (e.index = i)) then s
  else s.modCuts (fun c => { c with
    watch := c.watch ++ [⟨i, addCounts pos ((s.sec .s4).cfg.toCounts (s.sec .s4).cfg.distance)⟩] })

/-- A tail edge at T, M or K measures the record awaited there (R38). -/
def tailEdge (x : Sec) (pos : Pos) (s : State) : State :=
  match (s.sec x).awaiting with
  | none => s
  | some a =>
    if s.live a.index ∧ (s.record a.index).tag = a.tag then
      let mm := min 65535 ((s.sec x).cfg.toMm (pos - a.pos).toNat)
      let s1 := (s.writeRecord a.index (fun r => { r with eyeLength := some mm })).modSec x
        (fun u => { u with awaiting := none })
      let s2 := if x = .s4 then s1.joinWatch a.index pos else s1
      s2.lengthCheck a.index x mm
    else s

/-! ### Eye edges (R28, R29) -/

/-- An edge taken at the eye of a section while strips are followed (R29). -/
def followEdge (x : Sec) (lead : Bool) (pos : Pos) (s : State) : State :=
  match x, lead with
  | .s1, true => s.gaugeLead pos
  | .s1, false => s.gaugeTail pos
  | .s2, true => s.handoffEdge .s1 .s2 0 pos 65
  | .s3, true => s.handoffEdge .s2 .s3 1 pos 65
  | .s4, true => s.handoffEdge .s3 .s4 2 pos 65
  | .s2, false => s.tailEdge .s2 pos
  | .s3, false => s.tailEdge .s3 pos
  | .s4, false => s.tailEdge .s4 pos

/-- A pending change confirmed: the debounced state takes it and an edge is taken at its position; lead
edges are counted in every run state (R28, R29). -/
def confirmEye (x : Sec) (e : PendingEye) (s : State) : State :=
  let s' := s.modSec x (fun u => { u with
    blocked := e.blocked
    pending := none
    edges := if e.blocked then u.edges + 1 else u.edges })
  if s'.running then s'.followEdge x e.blocked e.pos else s'

/-- The pending change of an eye whose debounce distance is reached (R28). -/
def confirmed (s : State) (x : Sec) : Option PendingEye :=
  match (s.sec x).pending with
  | none => none
  | some e => if s.isReached x (addCounts e.pos (s.sec x).cfg.debounce) then some e else none

end State

/-! ### Reached positions (R26) -/

/-- A position that is reached and waits to be acted on. -/
inductive Due where
  /-- The pending change of the eye of the section whose counter stepped (R28). -/
  | eye (x : Sec) (e : PendingEye)
  /-- The overlength position (R48). -/
  | overlength (lead : Pos)
  /-- The handoff deadline of the head of S1, S2 or S3 (R37), or of S4 before its tail edge at K (R44). -/
  | deadline (x : Sec) (i : Fin 64)
  /-- The commit point, for the oldest member of S2 without the mark (R41). -/
  | commit (i : Fin 64)
  /-- The sort commit point, for the oldest member of S4 without the mark (R42). -/
  | sortCommit (i : Fin 64)
  /-- The first entry of a schedule that is reached (R34). -/
  | fire (x : Sec) (e : Entry)
  /-- The first entry of the run-off watch that is reached (R43). -/
  | runOff (i : Fin 64)
deriving DecidableEq, Repr

namespace State

/-- The overlength position, when reached (R48). -/
def dueOverlength (s : State) : Option Due :=
  match s.gauge with
  | .measuring lead overPos => if s.isReached .s1 overPos then some (.overlength lead) else none
  | _ => none

/-- The handoff deadline of a section's head, when reached (R37). -/
def dueDeadline (s : State) (x : Sec) : Option Due :=
  match s.list x with
  | [] => none
  | i :: _ =>
    if s.isReached x (s.deadline x i) then some (.deadline x i) else none

/-- The deadline of the head of S4 before its tail edge at eye K, when reached (R44). -/
def dueS4 (s : State) : Option Due :=
  match s.list .s4 with
  | [] => none
  | i :: _ =>
    if s.cuts.watch.any (fun e => decide (e.index = i)) then none
    else
      let c := (s.sec .s4).cfg
      let d := c.toCounts (s.expectedLen i .s4 + c.distance + c.window) + 1
      if s.isReached .s4 (addCounts (s.record i).lead d) then some (.deadline .s4 i) else none

/-- The commit point, when reached for the oldest member of S2 without the mark (R41). -/
def dueCommit (s : State) : Option Due :=
  match (s.list .s2).find? (fun i => !(s.record i).committed) with
  | none => none
  | some i =>
    let c := (s.sec .s2).cfg
    if s.isReached .s2 (addCounts (s.record i).lead (c.toCounts c.commit)) then some (.commit i) else none

/-- The sort commit point, when reached for the oldest member of S4 without the mark (R42). -/
def dueSort (s : State) : Option Due :=
  match (s.list .s4).find? (fun i => !(s.record i).sortCommitted) with
  | none => none
  | some i =>
    let c := (s.sec .s4).cfg
    if s.isReached .s4 (addCounts (s.record i).lead (c.toCounts c.sort)) then some (.sortCommit i) else none

/-- The first reached entry of a schedule (R34). -/
def dueEntry (s : State) (x : Sec) : Option Due :=
  ((s.sec x).schedule.find? (fun e => s.isReached x e.due)).map (fun e => .fire x e)

/-- The first reached entry of the run-off watch (R43). -/
def dueRunOff (s : State) : Option Due :=
  (s.cuts.watch.find? (fun e => s.isReached .s4 e.due)).map (fun e => .runOff e.index)

/-- The pending eye change of the section whose counter stepped, when confirmed (R28). -/
def dueEye (s : State) (stepped : Option Sec) : Option Due :=
  stepped.bind (fun x => (s.confirmed x).map (fun e => .eye x e))

/-- Every position that is reached and waits (R26). -/
def due (s : State) (stepped : Option Sec) : List Due :=
  [s.dueEye stepped, s.dueOverlength, s.dueDeadline .s1, s.dueDeadline .s2, s.dueDeadline .s3, s.dueS4,
    s.dueCommit, s.dueSort, s.dueEntry .s1, s.dueEntry .s2, s.dueEntry .s3, s.dueEntry .s4,
    s.dueRunOff].filterMap id

/-- The run-off due position of a record is reached (R43). -/
def runOff (i : Fin 64) (s : State) : State :=
  match (s.record i).disp with
  | .runoff _ =>
    ((s.offer (.piece ((s.record i).info none))).release i).modCounters (fun c => { c with runoff := c.runoff + 1 })
  | _ => s.lose i .s4

/-- A reached position is acted on. -/
def act (d : Due) (s : State) : State :=
  match d with
  | .eye x e => s.confirmEye x e
  | .overlength lead => s.overlength lead
  | .deadline x i => s.lose i x
  | .commit i => s.commitEvent i
  | .sortCommit i => s.sortCommit i
  | .fire x e => s.fireEntry x e
  | .runOff i => s.runOff i

/-- One of several reached positions is taken first: the free choice of log 7. -/
def pickDue (s : State) (d : Due) (ds : List Due) : Due := (d :: ds)[Config.pick s.choice % (ds.length + 1)]?.getD d

/-- Reached positions are acted on until none waits (R26, R37, R41, R42); which of several is taken first is
the free choice of log 7. -/
def settle (stepped : Option Sec) : Nat → State → State
  | 0, s => s
  | n + 1, s =>
    match s.due stepped with
    | [] => s
    | [d] => settle stepped n (s.act d)
    | d :: ds => settle stepped n ({ s with choice := s.choice + 1 }.act (s.pickDue d ds))

/-- More acts than one event can hold: each takes away an entry, a record, a mark or a pending change. -/
abbrev settleFuel : Nat := 1024

/-! ### HALT (R178, R179) -/

/-- Every live record released in list order (R18). -/
def releaseAll (s : State) : State := s.liveList.foldl (fun s i => s.release i) s

/-- Schedules, run-off watch and cut set emptied, and the outbound scan queue cut to the frame being sent
(R31, R39, R43, R51). -/
def emptyQueues (s : State) : State :=
  let s' := (s.modSecs (fun u => { u with schedule := [] })).modCuts (fun c => { c with cutSet := [], watch := [] })
  { s' with scan := { s'.scan with starts := s'.scan.starts.take 1 } }

/-- Entry to HALT (R18, R128, R153, R173, R178, R179, R181; the order inside the event is log 12). -/
def enterHalt (reason : HaltReason) (cause : RunCause) (s : State) : State :=
  let n := s.liveList.length
  let s1 := ((s.modRun (fun r => { r with state := .halt, halt := reason })).setReasons
    (fun r => { r with notRunning := true })).bankCommit
  let s2 := (s1.releaseAll.emptyQueues.stopFollowing).outputsSafe s.run.settings.feedLine
  s2.reportRun s.run.state cause n

/-! ### Encoders (R22 to R24, R27) -/

/-- The high mark follows the counter at every step in CONFIG and HALT (R27). -/
def followMark (x : Sec) (s : State) : State :=
  s.modSec x (fun u => { u with highMark := u.counter })

/-- A divided count forward: the counter steps up, the high mark follows, and the positions reached are
acted on (R24, R26, R27). -/
def stepForward (x : Sec) (s : State) : State :=
  let s1 := s.modSec x (fun u => { u with counter := u.counter + 1 })
  let s2 := if s1.running then
      (if s1.isReached x (s1.sec x).highMark then s1.followMark x else s1)
    else s1.followMark x
  s2.settle (some x) settleFuel

/-- A divided count backward: the counter steps down; in RUN and DRAIN reverse travel beyond the limit
halts the line (R24, R27). -/
def stepBackward (x : Sec) (s : State) : State :=
  let s1 := s.modSec x (fun u => { u with counter := u.counter - 1 })
  if s1.running then
    (if (s1.sec x).cfg.reversal < ((s1.sec x).highMark - (s1.sec x).counter).toNat then
      s1.enterHalt (.reversal x) (.reversal x)
    else s1)
  else s1.followMark x

/-- A raw count steps the divider accumulator (R23). -/
def rawStep (x : Sec) (forward : Bool) (s : State) : State :=
  let u := s.sec x
  if forward then
    if u.cfg.divider ≤ u.acc then (s.modSec x (fun v => { v with acc := 0 })).stepForward x
    else s.modSec x (fun v => { v with acc := v.acc + 1 })
  else
    if u.acc = 0 then (s.modSec x (fun v => { v with acc := v.cfg.divider })).stepBackward x
    else s.modSec x (fun v => { v with acc := v.acc - 1 })

/-- A phase of an encoder changes its level (R22). -/
def togglePhase (x : Sec) (phase : Phase) (s : State) : State :=
  match phase with
  | .a => { s with pins := { s.pins with phaseA := s.pins.phaseA.set x.idx (!s.pins.phaseA[x.idx]) } }
  | .b => { s with pins := { s.pins with phaseB := s.pins.phaseB.set x.idx (!s.pins.phaseB[x.idx]) } }

/-- The direction of a raw count, read after the change: with NORMAL sense a change of A is forward when A
and B then differ, a change of B when they are then equal; INVERTED exchanges them (R22). -/
def countsForward (s : State) (x : Sec) (phase : Phase) : Bool :=
  let differ := s.pins.phaseA[x.idx] != s.pins.phaseB[x.idx]
  let forward := match phase with
    | .a => differ
    | .b => !differ
  forward != (s.sec x).cfg.inverted

/-- The raw input of an eye takes a level (R28): a pending change begins or is dropped, and one that is
confirmed when it begins gives its edge in this event. -/
def eyeInput (x : Sec) (blocked : Bool) (s : State) : State :=
  let s' := { s with pins := { s.pins with eyes := s.pins.eyes.set x.idx blocked } }
  let u := s'.sec x
  if blocked = u.blocked then s'.modSec x (fun v => { v with pending := none })
  else if u.pending.isSome then s'
  else
    let s2 := s'.modSec x (fun v => { v with pending := some ⟨blocked, v.counter⟩ })
    match s2.confirmed x with
    | some e => (s2.confirmEye x e).settle none settleFuel
    | none => s2

end State

end Sys2Proof.Machine
end

