-- ==== Sys2Proof/Machine/Conveyor.lean ====
section
/-! DEFINITION. The meanings of the encoder and eye commands. -/

namespace Sys2Proof.Machine

namespace State

/-- One phase changes: a raw count in the direction read from the new levels (R22, R23). -/
def rawCount (x : Sec) (phase : Phase) (s : State) : State :=
  let s' := s.togglePhase x phase
  s'.rawStep x (s'.countsForward x phase)

end State

/-- RAW_COUNT (R22 to R24). -/
def execRawCount (x : Sec) (phase : Phase) (s : State) : Host.Outcome State Fault Refusal := .next (s.rawCount x phase)

/-- EYE_INPUT_CHANGE (R28, R29). -/
def execEyeInputChange (x : Sec) (blocked : Bool) (s : State) : Host.Outcome State Fault Refusal :=
  .next (s.eyeInput x blocked)

/-- BOTH_PHASES_CHANGE: no raw count; the new pair is the reference (R22). -/
def execBothPhasesChange (x : Sec) (s : State) : Host.Outcome State Fault Refusal :=
  .next ((s.togglePhase x .a).togglePhase x .b)

end Sys2Proof.Machine
end

