-- ==== Sys2Proof/Machine/Printer.lean ====
section
/-! DEFINITION. The meanings of the commands of the printer link and the READY and STOP inputs
(R160 to R166, R170). -/

namespace Sys2Proof.Machine

namespace State

/-- The receiver of the printer link hunts again (R187). -/
def printerHunts (s : State) : State := { s with host := { s.host with rxPrinter := .hunting } }

/-- The printer link error count rises (R163). -/
def printerError (s : State) : State :=
  s.printerHunts.modLabels (fun c => { c with linkErr := c.linkErr + 1 })

/-- A LABEL report on the entry of a serial as it stands (R171). -/
def reportLabel (serial : Nat) (event : LabelEvent) (s : State) : State :=
  match s.labelEntry serial with
  | some e => s.offer (e.report event)
  | none => s

/-! ### The pace interval and the end of a transmission -/

/-- The pace interval runs out since the previous send (R160). -/
def paceEnds (s : State) : State :=
  match s.labels.prevSend with
  | some t => if s.labels.flow = .paced then (s.clockTo (t + s.labels.pace)).trySend else s
  | none => s

/-- The current entry's frame has been sent: AWAIT_ACK, the ack timer, and the report of a STOP during the
transmission (R162, R166, R171). -/
def awaitAnswer (serial : Nat) (s : State) : State :=
  let s' := (s.modEntry serial (fun e => { e with status := .awaitAck })).modLabels (fun c => { c with
    state := .awaitAck
    ackTimer := some (s.clock + c.ackTimeout)
    stopSeen := false })
  if s.labels.stopSeen then s'.reportLabel serial .sentAfterStop else s'

/-- The last byte of a PRINT_LABEL frame is sent (R162, R166, R170); after a soft reset the channel may then start
a send (R172, log 19). -/
def transmissionEnds (s : State) : State :=
  match s.labels.wire with
  | none => s
  | some _ =>
    let s' := s.modLabels (fun c => { c with wire := none })
    match s.labels.state, s.labels.current with
    | .sending, some serial => s'.awaitAnswer serial
    | .sending, none => s'.endAwait
    | _, _ => s'.trySend

/-! ### Answers and their absence -/

/-- A reply that is not matched (R163). -/
def unmatchedReply (s : State) : State := s.modLabels (fun c => { c with unmatched := c.unmatched + 1 })

/-- A reply of a serial is matched (R163). -/
def isMatched (s : State) (serial : Nat) : Bool :=
  decide (s.labels.state = .awaitAck) && decide (s.labels.current = some serial)

/-- The ack timer stopped (R163). -/
def stopAckTimer (s : State) : State := s.modLabels (fun c => { c with ackTimer := none })

/-- The copies remaining of an entry. -/
def copiesOf (s : State) (serial : Nat) : Nat :=
  match s.labelEntry serial with
  | some e => e.copies
  | none => 0

/-- A matched ACK (R163). -/
def acked (serial : Nat) (s : State) : State :=
  if 1 < s.copiesOf serial then
    (s.stopAckTimer.modEntry serial (fun e => { e with copies := e.copies - 1, status := .queued })).endAwait
  else
    ((s.stopAckTimer.modEntry serial (fun e => { e with copies := 0, status := .printed })).reportLabel serial
      .printed).endAwait

/-- A copy fails (R163, R164). -/
def copyFails (serial : Nat) (cause : FailCause) (code : Byte) (s : State) : State :=
  ((s.stopAckTimer.modEntry serial (fun e => { e with status := .failed, cause := cause, code := code })).reportLabel
    serial .failed).endAwaitFailed serial

/-- An ACK taken (R163). -/
def takeAck (serial : Nat) (s : State) : State := if s.isMatched serial then s.acked serial else s.unmatchedReply

/-- A NAK taken (R163). -/
def takeNak (serial : Nat) (code : Byte) (s : State) : State :=
  if s.isMatched serial then s.copyFails serial .nak code else s.unmatchedReply

/-- The ack timer expires in AWAIT_ACK (R164). -/
def ackExpires (s : State) : State :=
  match s.labels.state, s.labels.current, s.labels.ackTimer with
  | .awaitAck, some serial, some t => (s.clockTo t).copyFails serial .timeout 0
  | _, _, _ => s

/-! ### READY and STOP -/

/-- READY becomes asserted (R160, R161). -/
def readyRises (s : State) : State :=
  match s.labels.flow with
  | .readyLevel => s.trySend
  | .readyPulse => if s.labels.permit then s else (s.modLabels (fun c => { c with permit := true })).trySend
  | .free => s
  | .paced => s

/-- READY changes its level (R161). -/
def readyInput (asserted : Bool) (s : State) : State :=
  if s.pins.ready = asserted then s
  else
    let s' := { s with pins := { s.pins with ready := asserted } }
    if asserted then s'.readyRises else s'

/-- STOP becomes asserted (R166). -/
def stopRises (s : State) : State :=
  match s.labels.state, s.labels.current with
  | .idle, _ => s.modLabels (fun c => { c with state := .stopped })
  | .sending, some serial =>
    (s.modEntry serial (fun e => { e with afterStop := true })).modLabels (fun c => { c with stopSeen := true })
  | _, _ => s

/-- STOP becomes not asserted (R166). -/
def stopFalls (s : State) : State :=
  match s.labels.state with
  | .stopped => s.enterIdle
  | _ => s

/-- STOP changes its level (R166). -/
def stopInput (asserted : Bool) (s : State) : State :=
  if s.pins.stop = asserted then s
  else
    let s' := { s with pins := { s.pins with stop := asserted } }
    if asserted then s'.stopRises else s'.stopFalls

end State

/-- PACE_INTERVAL (R160). -/
def execPaceInterval (s : State) : Host.Outcome State Fault Refusal := .next s.paceEnds

/-- LABEL_TRANSMISSION_COMPLETE (R162, R166, R170). -/
def execLabelTransmissionComplete (s : State) : Host.Outcome State Fault Refusal := .next s.transmissionEnds

/-- ACK (R163). -/
def execAck (serial : BitVec 32) (s : State) : Host.Outcome State Fault Refusal :=
  .next (s.printerHunts.takeAck serial.toNat)

/-- NAK (R163). -/
def execNak (serial : BitVec 32) (code : Byte) (s : State) : Host.Outcome State Fault Refusal :=
  .next (s.printerHunts.takeNak serial.toNat code)

/-- ACK_TIMEOUT (R164). -/
def execAckTimeout (s : State) : Host.Outcome State Fault Refusal := .next s.ackExpires

/-- READY_CHANGE (R160, R161). -/
def execReadyChange (asserted : Bool) (s : State) : Host.Outcome State Fault Refusal := .next (s.readyInput asserted)

/-- STOP_CHANGE (R166). -/
def execStopChange (asserted : Bool) (s : State) : Host.Outcome State Fault Refusal := .next (s.stopInput asserted)

/-- A frame of the printer is an ACK or a NAK of the right length (R163, 12.5). -/
def isPrinterAnswer (kind : Byte) (payload : List Byte) : Bool :=
  (decide (kind = 0x11) && decide (payload.length = 4)) || (decide (kind = 0x12) && decide (payload.length = 5))

/-- PRINTER_MALFORMED_FRAME: a frame that is no ACK and no NAK is counted and discarded (R163). An ACK or NAK in
good form is not this command's, and the state stays (log 1). -/
def execPrinterMalformedFrame (kind _id : Byte) (payload : List Byte) (s : State) : Host.Outcome State Fault Refusal :=
  .next (if isPrinterAnswer kind payload then s else s.printerError)

end Sys2Proof.Machine
end

