-- ==== Sys2Proof/Machine/Operands.lean ====
section
/-! DEFINITION. Operands: the fields of payloads (R201), the checks and clamps of fields (R190), and the
frames of the scanning station (R54, 12.5). -/

namespace Sys2Proof.Machine

/-! ### Fields of a payload -/

/-- The byte at an offset. -/
def u8 (p : List Byte) (i : Nat) : Nat := (p.getD i 0).toNat

/-- The two bytes at an offset, high byte first (R201). -/
def u16 (p : List Byte) (i : Nat) : Nat := u8 p i * 256 + u8 p (i + 1)

/-- The four bytes at an offset, high byte first (R201). -/
def u32 (p : List Byte) (i : Nat) : Nat := u16 p i * 65536 + u16 p (i + 2)

/-- A value lies outside a range. -/
def outside (lo hi v : Nat) : Bool := decide (v < lo) || decide (hi < v)

/-- A value clamped to the nearer end of its range (R190). -/
def clamp (lo hi v : Nat) : Nat := max lo (min hi v)

/-- A flag's byte, yes for 1 (R201). -/
def flag (p : List Byte) (i : Nat) : Bool := decide (u8 p i = 1)

/-- A flag's byte is neither 0 nor 1 (R201). -/
def badFlag (p : List Byte) (i : Nat) : Bool := decide (1 < u8 p i)

/-- An optional index: 0xFF for none (R201). -/
def optIdx (n v : Nat) [NeZero n] : Option (Fin n) := if v = 255 then none else some (Fin.ofNat n v)

/-- The code of an optional index names nothing (R201). -/
def badOpt (n v : Nat) : Bool := decide (v ≠ 255) && decide (n ≤ v)

/-- A printable character (R201). -/
def isChar (b : Byte) : Bool := decide (0x20 ≤ b.toNat) && decide (b.toNat ≤ 0x7E)

/-- The bytes from an offset on, as many as asked for. -/
def chars (p : List Byte) (start n : Nat) : Vector Byte n := Vector.ofFn (fun i => p.getD (start + i.val) 0)

/-- Some of the characters from an offset on is not printable (R201). -/
def badChars (p : List Byte) (start n : Nat) : Bool := !((chars p start n).toList.all isChar)

/-- The section of a number 1 to 4. -/
def secOf : Nat → Sec
  | 1 => .s1
  | 2 => .s2
  | 3 => .s3
  | _ => .s4

/-! ### Reply statuses (R190, R202) -/

/-- The status of a reply (R190). -/
inductive Status where
  | ok | badLength | badValue | noSuch | wrongState | bankInUse | pending | configIncomplete | notLabelled
  | unknownKind
deriving DecidableEq, Repr

/-- The status code (R202). -/
def Status.code : Status → Byte
  | .ok => 0x00 | .badLength => 0x01 | .badValue => 0x02 | .noSuch => 0x03 | .wrongState => 0x04
  | .bankInUse => 0x05 | .pending => 0x06 | .configIncomplete => 0x07 | .notLabelled => 0x08
  | .unknownKind => 0x09

/-- A request refused: no state changes, and the reply is the status alone (R190, R202). -/
def refuse (st : Status) (s : State) : State × List Byte := (s, [st.code])

/-- The first check that fails decides the status (R190); each check says whether it fails. -/
def firstFail : List (Bool × Status) → Option Status
  | [] => none
  | (fails, st) :: rest => if fails then some st else firstFail rest

/-- The checks of a request in their order: the length, then the request's own; then it is acted on
(R190, R203). -/
def handle (len : Nat) (checks : List (Bool × Status)) (act : State → State × List Byte) (p : List Byte)
    (s : State) : State × List Byte :=
  if p.length ≠ len then refuse .badLength s
  else
    match firstFail checks with
    | some st => refuse st s
    | none => act s

/-- A START_LINE or COMMIT_BANK refused with an item and its number (R202). -/
def incomplete (item : Byte) (number : Nat) (s : State) : State × List Byte :=
  (s, [Status.configIncomplete.code, item, toByte number])

/-- An OK reply of one byte (R202). -/
def okay (s : State) : State × List Byte := (s, [Status.ok.code])

/-- An OK reply to a settings request, with the clamped flag (R190, R202). -/
def okaySet (clamped : Bool) (s : State) : State × List Byte := (s, [Status.ok.code, flagByte clamped])

/-- An OK reply to a query, with its contents (R202). -/
def okayWith (contents : List Byte) (s : State) : State × List Byte := (s, Status.ok.code :: contents)

/-! ### Frames of the scanning station (R52, R54, 12.5) -/

/-- The head that a frame's bytes name, when it is readable (R52): kind PROFILE gives head 3; DEFECTS and
SCAN_END give the head byte at offset 2 when the payload reaches it and it is 1 or 2. -/
def readableHead (kind : Byte) (payload : List Byte) : Option Head :=
  if kind = 0x13 then some .profile
  else if kind = 0x11 ∨ kind = 0x12 then
    match payload[2]? with
    | some b => if b = 1 then some .top else if b = 2 then some .bottom else none
    | none => none
  else none

/-- A face named by a head byte 1 or 2. -/
def faceOf : Nat → Option Face
  | 1 => some .top
  | 2 => some .bottom
  | _ => none

/-- A defect entry as a DEFECTS frame carries it (12.5). -/
structure RawDefect where
  cls      : BitVec 4
  severity : BitVec 4
  start    : Nat
  extent   : Nat
deriving DecidableEq, Repr

/-- The entries of a DEFECTS frame, 5 bytes each: class and severity, s, e (12.5). -/
def rawDefects (p : List Byte) (count : Nat) : List RawDefect :=
  (List.range count).map (fun k =>
    ⟨BitVec.ofNat 4 (u8 p (4 + 5 * k) / 16), BitVec.ofNat 4 (u8 p (4 + 5 * k)), u16 p (5 + 5 * k), u16 p (7 + 5 * k)⟩)

/-- A well-formed DEFECTS frame (R54). -/
structure DefectsFrame where
  tag     : Nat
  face    : Face
  entries : List RawDefect
  more    : Bool
deriving DecidableEq, Repr

/-- The form check of a DEFECTS frame (R54, R203). -/
def parseDefects (p : List Byte) : Option DefectsFrame :=
  let c := u8 p 3
  let more := u8 p (4 + 5 * c)
  if 4 ≤ p.length ∧ p.length = 5 + 5 * c ∧ 1 ≤ c ∧ c ≤ 8 ∧ more ≤ 1 then
    (faceOf (u8 p 2)).map (fun f => ⟨u16 p 0, f, rawDefects p c, decide (more = 1)⟩)
  else none

/-- The form check of a SCAN_END frame: tag, face and total (R54). -/
def parseScanEnd (p : List Byte) : Option (Nat × Face × Nat) :=
  if p.length = 4 then (faceOf (u8 p 2)).map (fun f => (u16 p 0, f, u8 p 3)) else none

/-- The form check of a PROFILE frame: tag and the four dimensions (R54). -/
def parseProfile (p : List Byte) : Option (Nat × Vector Nat 4) :=
  if p.length = 10 then some (u16 p 0, Vector.ofFn (fun i => u16 p (2 + 2 * i.val))) else none

end Sys2Proof.Machine
end

