-- ==== Sys2Proof/Machine/Commands.lean ====
section
/-! DEFINITION. The test requests of the output stage (R129), the pocket requests (R146 to R148, R150) and the
label requests (R167 to R169). -/

namespace Sys2Proof.Machine

namespace State

/-! ### TEST_OUTPUT -/

/-- A line takes no test request: it belongs to an armed pair, or holds the feed-hold role (R129). -/
def untestable (s : State) (l : Fin 24) : Bool := (s.pairOf l).isSome || decide (s.run.settings.feedLine = some l)

/-- The checks that every form shares, in the order of log 21: the run state, then the form code. -/
def testChecks (p : List Byte) (s : State) : List (Bool × Status) :=
  [(decide (s.run.state ≠ .config), .wrongState), (outside 0 2 (u8 p 0), .badValue)]

/-- The level form (R129). -/
def takeTestLevel (p : List Byte) (s : State) : State × List Byte :=
  handle 3
    (testChecks p s ++ [(decide (24 ≤ u8 p 1), .noSuch), (outside 0 1 (u8 p 2), .badValue),
      (s.untestable (Fin.ofNat 24 (u8 p 1)), .wrongState)])
    (fun s => okay (s.levelRequest (flag p 2) (Fin.ofNat 24 (u8 p 1)))) p s

/-- The pulse form (R129). -/
def takeTestPulse (p : List Byte) (s : State) : State × List Byte :=
  handle 3
    (testChecks p s ++ [(decide (24 ≤ u8 p 1), .noSuch), (decide (u8 p 2 ≠ 0), .badValue),
      (s.untestable (Fin.ofNat 24 (u8 p 1)), .wrongState)])
    (fun s => okay (s.pulseRequest (Fin.ofNat 24 (u8 p 1)))) p s

/-- A combination of its code: the first line in bit 1, the second in bit 0 (R201). -/
def comboOf (v : Nat) : Combo := ⟨v.testBit 1, v.testBit 0⟩

/-- The target form (R129). -/
def takeTestTarget (p : List Byte) (s : State) : State × List Byte :=
  handle 3
    (testChecks p s ++ [(decide (6 ≤ u8 p 1), .noSuch), (outside 0 3 (u8 p 2), .badValue),
      ((s.pair (Fin.ofNat 6 (u8 p 1))).isNone, .wrongState)])
    (fun s => okay (s.targetRequest .host 0 (Fin.ofNat 6 (u8 p 1)) (comboOf (u8 p 2)))) p s

/-- TEST_OUTPUT by its form; a form that does not exist is refused (R129, R203). -/
def takeTestOutput (p : List Byte) (s : State) : State × List Byte :=
  match u8 p 0 with
  | 0 => s.takeTestLevel p
  | 1 => s.takeTestPulse p
  | _ => s.takeTestTarget p

/-! ### Pocket requests -/

/-- CLOSE_POCKET (R146). -/
def takeClosePocket (p : List Byte) (s : State) : State × List Byte :=
  let n := Fin.ofNat 12 (u8 p 0)
  handle 1
    [(decide (12 ≤ u8 p 0), .noSuch),
     ((s.pocket n).cfg.isBin || decide ((s.pocket n).state ≠ .filling), .wrongState)]
    (fun s => okay (s.closeBundle n .host)) p s

/-- A held pocket leaves the label-wait set (R147). -/
def Bundle.leaveWait (b : Bundle) : Bundle := { b with label := if b.label = .waiting then .none else b.label }

/-- The pocket held (R147). -/
def holdPocket (n : Fin 12) (s : State) : State :=
  (s.modPocket n (fun k => { k with prior := some k.state, bundle := k.bundle.map Bundle.leaveWait })).movePocket n
    .stalled .held 0

/-- HOLD_POCKET (R147). -/
def takeHoldPocket (p : List Byte) (s : State) : State × List Byte :=
  let n := Fin.ofNat 12 (u8 p 0)
  handle 1
    [(decide (12 ≤ u8 p 0), .noSuch),
     (decide ((s.pocket n).state = .offline) || decide ((s.pocket n).state = .stalled), .wrongState)]
    (fun s => okay (s.holdPocket n)) p s

/-- The pocket released (R148): with lost contents it is EMPTY, otherwise it returns to its prior state, with the
closing test of a CLOSING bundle. The report "released" goes before the report of the closing test, the model's choice
(log 50). -/
def releasePocket (n : Fin 12) (s : State) : State :=
  if (s.pocket n).lost then
    (s.modPocket n (fun k => { k with count := 0, bundle := none, lost := false, prior := none })).movePocket n .empty
      .released 0
  else
    ((s.modPocket n (fun k => { k with prior := none })).movePocket n ((s.pocket n).prior.getD .empty) .released
      0).closingTest n

/-- RELEASE_POCKET (R148). -/
def takeReleasePocket (p : List Byte) (s : State) : State × List Byte :=
  let n := Fin.ofNat 12 (u8 p 0)
  handle 1
    [(decide (12 ≤ u8 p 0), .noSuch), (decide ((s.pocket n).state ≠ .stalled), .wrongState)]
    (fun s => okay (s.releasePocket n)) p s

/-- A pocket is a bin in FILLING or FULL (R150). -/
def fullBin (s : State) (n : Fin 12) : Bool :=
  (s.pocket n).cfg.isBin && (decide ((s.pocket n).state = .filling) || decide ((s.pocket n).state = .full))

/-- CLEAR_POCKET (R150). The force flag is checked before the state, the model's choice (log 44). -/
def takeClearPocket (p : List Byte) (s : State) : State × List Byte :=
  let n := Fin.ofNat 12 (u8 p 0)
  handle 2
    [(decide (12 ≤ u8 p 0), .noSuch),
     (badFlag p 1, .badValue),
     (decide ((s.pocket n).state ≠ .closed) && !s.fullBin n, .wrongState),
     (decide ((s.pocket n).state = .closed) && !s.labelDone n && !flag p 1, .notLabelled)]
    (fun s => if (s.pocket n).state = .closed then okay (s.clearBundle n (s.labelSerial n)) else okay (s.clearBin n))
    p s

/-! ### Label requests -/

/-- PAUSE_LABELS on the channel (R167). -/
def pauseLabels (s : State) : State :=
  match s.labels.state with
  | .idle => s.modLabels (fun c => { c with state := .paused })
  | .stopped => s.modLabels (fun c => { c with state := .paused })
  | .sending => s.modLabels (fun c => { c with pausePending := true })
  | .awaitAck => s.modLabels (fun c => { c with pausePending := true })
  | .paused => s
  | .fault => s

/-- PAUSE_LABELS (R167). -/
def takePauseLabels (p : List Byte) (s : State) : State × List Byte :=
  handle 0 [(decide (s.labels.state = .fault), .wrongState)] (fun s => okay s.pauseLabels) p s

/-- The fault entry becomes QUEUED again (R167). -/
def requeueFault (s : State) : State :=
  match s.labels.faultEntry with
  | some serial => s.modEntry serial (fun e => { e with status := .queued, cause := .none, code := 0 })
  | none => s

/-- RESUME_LABELS on the channel (R167). -/
def resumeLabels (s : State) : State :=
  match s.labels.state with
  | .sending => s.modLabels (fun c => { c with pausePending := false })
  | .awaitAck => s.modLabels (fun c => { c with pausePending := false })
  | .paused => s.enterIdle
  | .fault => s.requeueFault.leaveFault
  | .idle => s
  | .stopped => s

/-- RESUME_LABELS (R167). -/
def takeResumeLabels (p : List Byte) (s : State) : State × List Byte := handle 0 [] (fun s => okay s.resumeLabels) p s

/-- No entry of a serial holds one of the statuses given (R168, R169). -/
def entryNotIn (s : State) (serial : Nat) (statuses : List LabelStatus) : Bool :=
  match s.labelEntry serial with
  | some e => decide (e.status ∉ statuses)
  | none => true

/-- An entry becomes SKIPPED (R168). -/
def skipLabel (serial : Nat) (s : State) : State :=
  let s' := s.modEntry serial (fun e => { e with status := .skipped })
  if s.labels.faultEntry = some serial then s'.leaveFault else s'

/-- SKIP_LABEL (R168). -/
def takeSkipLabel (p : List Byte) (s : State) : State × List Byte :=
  handle 4
    [((s.labelEntry (u32 p 0)).isNone, .noSuch), (s.entryNotIn (u32 p 0) [.queued, .failed], .wrongState)]
    (fun s => okay (s.skipLabel (u32 p 0))) p s

/-- An entry becomes QUEUED again with fresh copies (R169). -/
def reprintLabel (serial : Nat) (s : State) : State :=
  let s' := s.modEntry serial (fun e =>
    { e with status := .queued, copies := s.labels.copies, cause := .none, code := 0, afterStop := false })
  if s.labels.faultEntry = some serial then s'.leaveFault else s'.trySend

/-- REPRINT_LABEL (R169). -/
def takeReprintLabel (p : List Byte) (s : State) : State × List Byte :=
  handle 4
    [((s.labelEntry (u32 p 0)).isNone, .noSuch),
     (s.entryNotIn (u32 p 0) [.printed, .failed, .skipped], .wrongState)]
    (fun s => okay (s.reprintLabel (u32 p 0))) p s

end State

end Sys2Proof.Machine
end

