-- ==== Sys2Proof/Machine/RunControl.lean ====
section
/-! DEFINITION. The requests of run control (R174 to R178, R180, R183) and its attention summary (R185). -/

namespace Sys2Proof.Machine

namespace State

/-! ### START_LINE -/

/-- A section's handoff distance is not set (R174). -/
def unset (s : State) (x : Sec) : Bool := decide ((s.sec x).cfg.distance = 0)

/-- The lowest pocket in use whose kicker does not lie beyond the sort commit point (R174). -/
def earlyKicker (s : State) : Option (Fin 12) :=
  (List.finRange 12).find? (fun p =>
    decide ((s.pocket p).state ≠ .offline) && decide ((s.pocket p).cfg.position ≤ (s.sec .s4).cfg.sort))

/-- A bank defines a grade (R74, R174). -/
def definesGrade (s : State) (bank : Bank) : Bool := (s.table bank).grades.toList.any GradeDef.defined

/-- The first item that START_LINE finds incomplete, with its number (R174, R202). -/
def missingItem (s : State) : Option (Byte × Nat) :=
  if s.definesGrade s.solver.active = false then some (1, 0)
  else
    match [Sec.s1, .s2, .s3, .s4].find? s.unset with
    | some x => some (2, x.num)
    | none =>
      if s.cuts.sawLine = none then some (3, 0)
      else if s.cuts.sawPos ≤ (s.sec .s2).cfg.commit then some (4, 0)
      else if s.run.settings.regrade = none then some (5, 0)
      else if s.run.settings.overflow = none then some (6, 0)
      else s.earlyKicker.map (fun p => (7, p.val))

/-- Entry to RUN from CONFIG (R173, R175, R181). -/
def enterRun (s : State) : State :=
  let s1 := { (s.modRun (fun r => { r with state := .run })).modSecs (fun u => { u with highMark := u.counter })
    with gauge := .idle }
  (s1.setReasons (fun r => { r with notRunning := false })).reportRun .config .startLine 0

/-- The return to RUN from DRAIN (R175). -/
def returnToRun (s : State) : State :=
  ((s.modRun (fun r => { r with state := .run })).setReasons (fun r => { r with notRunning := false })).reportRun
    .drain .startLine 0

/-- START_LINE (R174). -/
def takeStartLine (p : List Byte) (s : State) : State × List Byte :=
  handle 0 [(decide (s.run.state = .halt), .wrongState)] (fun s =>
    match s.run.state with
    | .run => okay s
    | .halt => okay s
    | .config =>
      match s.missingItem with
      | some (item, number) => incomplete item number s
      | none => okay s.enterRun
    | .drain =>
      match s.missingItem with
      | some (item, number) => incomplete item number s
      | none => okay s.returnToRun) p s

/-! ### STOP_LINE, HALT_LINE, CLEAR_HALT, FEED_HOLD -/

/-- Entry to DRAIN, and the drain test at entry (R176, R177). -/
def enterDrain (s : State) : State :=
  (((s.modRun (fun r => { r with state := .drain })).setReasons (fun r => { r with notRunning := true })).reportRun
    .run .stopLine 0).drainTest

/-- STOP_LINE (R176, R180). -/
def takeStopLine (p : List Byte) (s : State) : State × List Byte :=
  handle 0 [(!s.running, .wrongState)]
    (fun s => if s.run.state = .run then okay s.enterDrain else okay s) p s

/-- HALT_LINE (R178). -/
def takeHaltLine (p : List Byte) (s : State) : State × List Byte :=
  handle 0 [] (fun s => if s.run.state = .halt then okay s else okay (s.enterHalt .host .haltLine)) p s

/-- The line leaves HALT for CONFIG (R180). -/
def leaveHalt (s : State) : State :=
  ((s.modRun (fun r => { r with state := .config, halt := .none })).stopFollowing).reportRun .halt .clearHalt 0

/-- CLEAR_HALT (R180). -/
def takeClearHalt (p : List Byte) (s : State) : State × List Byte :=
  handle 0 [(decide (s.run.state ≠ .halt), .wrongState)] (fun s => okay s.leaveHalt) p s

/-- FEED_HOLD (R183). -/
def takeFeedHold (p : List Byte) (s : State) : State × List Byte :=
  handle 1 [(badFlag p 0, .badValue)] (fun s => okay (s.setReasons (fun r => { r with host := flag p 0 }))) p s

/-! ### What the host is shown -/

/-- The condition that makes a pocket need someone at the line (R185, R201): STALLED 1, CLOSED 2, label
wait 3. -/
def attention (s : State) (p : Fin 12) : Nat :=
  match (s.pocket p).state with
  | .stalled => 1
  | .closed => 2
  | _ => if s.waiting p then 3 else 0

/-- The attention summary: the lowest pocket that qualifies with its condition, 12 and 0 when none does
(R185, 12.7). -/
def attentionSummary (s : State) : Nat × Nat :=
  match (List.finRange 12).find? (fun p => decide (s.attention p ≠ 0)) with
  | some p => (p.val, s.attention p)
  | none => (12, 0)

end State

end Sys2Proof.Machine
end

