-- ==== Sys2Proof/Machine/Queries.lean ====
section
/-! DEFINITION. The queries (R20, R21, R152, R171, R195, R197, R198) and the contents of their replies
(12.4, 12.7). -/

namespace Sys2Proof.Machine

open Sys2Proof.Config

/-! ### Contents of replies -/

/-- The part name "OGZ-2416" (R195). -/
def partName : List Byte := [0x4F, 0x47, 0x5A, 0x2D, 0x32, 0x34, 0x31, 0x36]

/-- A solution as GET_STRIP carries it, offsets 25 to 39 (12.4). -/
def solutionBytes : Option Solution → List Byte
  | some v => [1] ++ be16 v.t1 ++ be16 v.t2 ++ be16 v.len ++ [gradeCode v.grade] ++ be32 v.value
      ++ [flagByte v.bonus] ++ be16 v.slack
  | none => List.replicate 15 0

/-- A placement as GET_STRIP carries it, offsets 43 to 47 (12.4). -/
def placementBytes : Option Placement → List Byte
  | some p => [1, toByte p.pocket.val, toByte p.row.val] ++ be16 p.amount
  | none => List.replicate 5 0

/-- Deviations as GET_STRIP carries them, offsets 15 to 23 (12.4). -/
def deviationBytes : Option (Vector Int 4) → List Byte
  | some d => 1 :: d.toList.flatMap beInt16
  | none => List.replicate 9 0

/-- A defect entry as GET_STRIP carries it (12.4). -/
def Defect.bytes (d : Defect) : List Byte :=
  [toByte (d.cls.toNat * 16 + d.severity.toNat), d.face.code] ++ be16 d.start ++ be16 d.extent

/-- The contents of a GET_STRIP reply, from offset 1 on (R21, 12.4). -/
def Record.bytes (r : Record) (i : Fin 64) : List Byte :=
  [toByte i.val] ++ be16 r.tag ++ [r.loc.code, r.bank.code] ++ be16 r.len ++ be24 r.lead.toNat
  ++ [toByte ((if r.committed then 1 else 0) + (if r.sortCommitted then 2 else 0)), r.top.code, r.bottom.code,
      r.profile.code]
  ++ deviationBytes r.deviations ++ [r.solve.code] ++ solutionBytes r.solution ++ r.disp.bytes
  ++ placementBytes r.placement ++ [r.faults.code]
  ++ [flagByte r.eyeLength.isSome] ++ be16 (r.eyeLength.getD 0)
  ++ [toByte r.defects.length] ++ r.defects.flatMap Defect.bytes

/-- The pocket configuration record (12.4). -/
def PocketCfg.bytes (c : PocketCfg) (p : Fin 12) : List Byte :=
  [toByte p.val, flagByte c.inService, flagByte c.isBin, toByte c.grade.val, indexCode c.kicker]
  ++ be16 c.position ++ be16 c.offset ++ [indexCode c.alternate, toByte c.rows] ++ be16 c.rowLen
  ++ [toByte c.joint] ++ be16 c.closeGap ++ [toByte c.maxPieces, toByte c.bonus, toByte c.tolerance]
  ++ be16 c.capacity

/-- A pocket's rows as GET_POCKET carries them (12.7). -/
def Pocket.rowBytes (k : Pocket) (b : Bundle) : List Byte :=
  (List.finRange 12).flatMap (fun r =>
    if r.val < k.cfg.rows then be16 b.committed[r] ++ be16 b.reserved[r] ++ be16 (k.gap r)
    else List.replicate 6 0)

/-- A pocket's bundle record as GET_POCKET carries it, offsets 25 to 118 (12.7). -/
def Pocket.bundleBytes (k : Pocket) : List Byte :=
  match k.bundle with
  | some b => [1, toByte b.grade.val, toByte b.pieces, toByte b.reservations] ++ be32 b.total
      ++ b.histogram.toList.map (fun n => toByte n) ++ [b.closeReason.code, b.label.code] ++ be32 b.label.serial
      ++ k.rowBytes b
  | none => List.replicate 94 0

/-- An entry in the summary of GET_LABELS (12.7). -/
def LabelEntry.summary (e : LabelEntry) : List Byte :=
  be32 e.serial ++ [toByte e.pocket.val, e.status.code, toByte e.copies, e.cause.code, e.code, flagByte e.afterStop]

/-- The line counters in the order of R198. -/
def LineCounters.toList (c : LineCounters) : List Count :=
  [c.gauged, c.untracked, c.undersize, c.overlength, c.unscanned, c.solved, c.missed, c.cutMissed, c.endSkipped]
  ++ c.stray.toList ++ c.lost.toList ++ [c.suspect] ++ c.kicked.toList ++ [c.runoff]

/-- The line settings in the layout of the SET_LINE payload (12.6, 12.7). -/
def LineSettings.bytes (c : LineSettings) : List Byte :=
  [indexCode c.regrade, indexCode c.overflow, indexCode c.feedLine, toByte c.threshold, toByte c.tolerance]

/-- A pair as GET_STATE carries it (R131, 12.7; for a pair not armed, log 17). -/
def pairBytes : Option Pair → List Byte
  | some q => [1, toByte q.first.val, toByte q.second.val, toByte q.dead, q.safe.code, q.shown.code,
      flagByte q.timer.isSome, comboCode q.target]
  | none => [0, 0xFF, 0xFF, 0, 0, 0, 0, 0xFF]

namespace State

/-! ### Strips -/

/-- GET_STRIP (R21). -/
def takeGetStrip (p : List Byte) (s : State) : State × List Byte :=
  handle 2 [((s.findTag (u16 p 0)).isNone, .noSuch)] (fun s =>
    match s.findTag (u16 p 0) with
    | some i => okayWith ((s.record i).bytes i) s
    | none => refuse .noSuch s) p s

/-- The members of a list by its code (R20). -/
def listOf (s : State) : Nat → List (Fin 64)
  | 0 => s.pool.free
  | n + 1 => s.list (secOf (n + 1))

/-- GET_LIST (R20). -/
def takeGetList (p : List Byte) (s : State) : State × List Byte :=
  handle 1 [(decide (4 < u8 p 0), .noSuch)] (fun s =>
    let members := s.listOf (u8 p 0)
    okayWith ([toByte (u8 p 0), toByte members.length]
      ++ members.flatMap (fun i => toByte i.val :: be16 (s.record i).tag)) s) p s

/-! ### Pockets and labels -/

/-- GET_POCKET (R152). -/
def takeGetPocket (p : List Byte) (s : State) : State × List Byte :=
  handle 1 [(decide (12 ≤ u8 p 0), .noSuch)] (fun s =>
    let n := Fin.ofNat 12 (u8 p 0)
    let k := s.pocket n
    okayWith (k.cfg.bytes n
      ++ [k.state.code, (k.prior.map PocketState.code).getD 0xFF, flagByte k.lost] ++ k.bundleBytes
      ++ be16 (if k.cfg.isBin then k.count else 0) ++ be16 (if k.cfg.isBin then s.pendingKicks n else 0)) s) p s

/-- The channel and queue summary (R171, 12.7). -/
def labelSummary (s : State) : List Byte :=
  [s.labels.state.code, flagByte s.labels.pausePending, flagByte s.labels.permit, s.labels.flow.code]
  ++ be32 s.labels.serial ++ be32 (s.labels.faultEntry.getD 0) ++ [toByte s.labels.queue.length]
  ++ s.labels.queue.flatMap LabelEntry.summary

/-- GET_LABELS (R171). -/
def takeGetLabels (p : List Byte) (s : State) : State × List Byte :=
  handle 4 [(decide (u32 p 0 ≠ 0) && (s.labelEntry (u32 p 0)).isNone, .noSuch)] (fun s =>
    if u32 p 0 = 0 then okayWith s.labelSummary s
    else
      match s.labelEntry (u32 p 0) with
      | some e => okayWith (e.bytes ++ [e.status.code, e.cause.code, e.code]) s
      | none => refuse .noSuch s) p s

/-! ### Counts -/

/-- The 43 counts in the order of R198. -/
def counts (s : State) : List Count :=
  s.run.counters.toList ++ s.secs.toList.map SectionUnit.edges
  ++ [s.scan.linkErr, s.scan.overflow, s.scan.unknown, s.scan.late, s.check.fails, s.labels.linkErr,
      s.labels.unmatched, s.host.frameErr, s.host.overrun]

/-- The counts as a reply carries them (R198, 12.7). -/
def countBytes (s : State) : List Byte := s.counts.flatMap (fun c => be32 c.toNat)

/-- Every count zeroed (R198). -/
def zeroCounts (s : State) : State :=
  { s.modSecs (fun u => { u with edges := 0 }) with
    run := { s.run with counters := {} }
    scan := { s.scan with linkErr := 0, overflow := 0, unknown := 0, late := 0 }
    check := { s.check with fails := 0 }
    labels := { s.labels with linkErr := 0, unmatched := 0 }
    host := { s.host with frameErr := 0, overrun := 0 } }

/-- GET_COUNTS (R198). -/
def takeGetCounts (p : List Byte) (s : State) : State × List Byte := handle 0 [] (fun s => okayWith s.countBytes s) p s

/-- CLEAR_COUNTS (R198). -/
def takeClearCounts (p : List Byte) (s : State) : State × List Byte :=
  handle 0 [] (fun s => okayWith s.countBytes s.zeroCounts) p s

/-! ### IDENTIFY and GET_STATE -/

/-- IDENTIFY (R195). -/
def takeIdentify (p : List Byte) (s : State) : State × List Byte :=
  handle 0 [] (fun s => okayWith (partName ++ [1, toByte s.host.rate.toNat, toByte nRecords, toByte nSchedule,
    toByte nPockets, toByte nRules, toByte nLabels, toByte nReports, toByte nRequests]) s) p s

/-- A line as GET_STATE carries it; a line of an armed pair shows HELD when the pair shows it on
(R131, 12.7, log 15). -/
def lineByte (s : State) (l : Fin 24) : Byte :=
  match s.pairOf l with
  | none => (s.line l).state.code
  | some _ => if s.pin l then 0x82 else 0x80

/-- The index and tag of the record in flight, 0xFF and 0 for none (R77, 12.7). -/
def flightBytes (s : State) : List Byte :=
  match s.solver.flight with
  | some f => toByte f.index.val :: be16 (s.record f.index).tag
  | none => 0xFF :: be16 0

/-- The contents of a GET_STATE reply, from offset 1 on (R197, 12.7). -/
def stateBytes (s : State) : List Byte :=
  [s.run.state.code] ++ s.run.halt.bytes ++ [s.run.reasons.code, flagByte s.feedAsserted, toByte s.freeCount,
    toByte s.run.settings.threshold, toByte s.attentionSummary.1, toByte s.attentionSummary.2]
  ++ [s.solver.active.code, flagByte s.solver.commitPending, toByte (s.unsolved .a), toByte (s.unsolved .b),
      flagByte s.solver.flight.isSome] ++ s.flightBytes ++ [toByte s.solver.queue.length]
  ++ [toByte s.scan.top.errors, toByte s.scan.bottom.errors, toByte s.scan.profile.errors,
      flagByte s.scan.top.degraded, flagByte s.scan.bottom.degraded, flagByte s.scan.profile.degraded]
  ++ [flagByte s.check.enable, flagByte s.check.hold] ++ s.check.trends.toList.flatMap beInt32
  ++ [s.check.state.code, flagByte s.run.reasons.profile]
  ++ (List.finRange 24).map s.lineByte ++ (List.finRange 6).flatMap (fun p => pairBytes (s.pair p))
  ++ [flagByte s.out.saw.isSome] ++ s.run.settings.bytes
  ++ [toByte s.host.requests.length, toByte s.reports.queue.length] ++ be16 s.reports.lost
  ++ [s.reports.seq, s.reports.mask] ++ be32 s.host.frameErr.toNat ++ be32 s.host.overrun.toNat

/-- GET_STATE (R197). -/
def takeGetState (p : List Byte) (s : State) : State × List Byte := handle 0 [] (fun s => okayWith s.stateBytes s) p s

end State

end Sys2Proof.Machine
end

