-- ==== Sys2Proof/Machine/Resets.lean ====
section
/-! DEFINITION. The two resets, block by block (R19, R28, R29, R38, R49, R51, R53, R58, R59, R64, R67, R75, R76,
R79, R102, R107, R113, R116, R130, R149, R154, R172, R173, R181 to R184, R199, R200). -/

namespace Sys2Proof.Machine

/-- A section unit after a soft reset: settings, divider accumulator and counter kept (R23, R24, R27 to R31,
R38). -/
def SectionUnit.softReset (u : SectionUnit) (blocked : Bool) : SectionUnit :=
  { cfg := u.cfg, acc := u.acc, counter := u.counter, highMark := u.counter, blocked := blocked }

/-- Cut execution after a soft reset: settings kept; last retracts, cut set and run-off watch cleared
(R39, R43, R116). -/
def CutUnit.softReset (c : CutUnit) : CutUnit :=
  { c with lastTongue := none, lastGroove := none, cutSet := [], watch := [] }

/-- The trim solver after a soft reset: the banks and the active choice kept, a pending commit dropped
(R65 to R67, R75, R79). -/
def Solver.softReset (v : Solver) : Solver := { bankA := v.bankA, bankB := v.bankB, active := v.active }

/-- The profile check after a soft reset: settings kept (R102). -/
def ProfileCheck.softReset (c : ProfileCheck) : ProfileCheck :=
  { enable := c.enable, hold := c.hold, shift := c.shift, dims := c.dims }

/-- A pocket's contents are lost at a soft reset (R154). -/
def Pocket.losesContents (k : Pocket) : Bool :=
  k.bundle.isSome || (k.cfg.isBin && decide (0 < k.count)) || (decide (k.state = .stalled) && k.lost)

/-- A pocket after a soft reset (R154). A pocket marked content lost remembers the state it held, or the prior
state it already remembered (R133, log 18). -/
def Pocket.softReset (k : Pocket) : Pocket :=
  if k.losesContents then
    { cfg := k.cfg, state := .stalled, lost := true
      prior := if k.state = .stalled then k.prior else some k.state }
  else if k.state = .offline then { cfg := k.cfg }
  else { cfg := k.cfg, state := .empty }

/-- The label channel after a soft reset: settings, serial counter and the frame on the link kept (R172). -/
def LabelChannel.softReset (c : LabelChannel) (stop : Bool) : LabelChannel where
  species := c.species
  lot := c.lot
  width := c.width
  copies := c.copies
  flow := c.flow
  pace := c.pace
  ackTimeout := c.ackTimeout
  serial := c.serial
  wire := c.wire
  state := if stop then .stopped else .idle

namespace State

/-- Every block but run control's feed-hold line as a soft reset leaves it. -/
def softBlocks (s : State) : State :=
  { s.outputsSafe none with
    pool := Pool.reset
    secs := Vector.ofFn (fun i => s.secs[i].softReset s.pins.eyes[i])
    cuts := s.cuts.softReset
    gauge := .idle
    scan := { starts := s.scan.starts.take 1 }
    solver := s.solver.softReset
    check := s.check.softReset
    out := { (s.outputsSafe none).out with saw := none }
    pockets := Vector.ofFn (fun i => s.pockets[i].softReset)
    clears := Vector.ofFn (fun i => { level := s.pins.clears[i] })
    labels := s.labels.softReset s.pins.stop
    run := { settings := s.run.settings }
    reports := { mask := s.reports.mask }
    host := { rate := s.host.rate } }

/-- The level-on request to the feed-hold line after a soft reset (R130, R181). A line of an armed pair does not
take it, and no PROTECT report is offered (R130, log 29). -/
def softFeedHold (s : State) : State :=
  match s.run.settings.feedLine with
  | none => s
  | some l => if (s.pairOf l).isSome then s else s.levelOn l

/-- A soft reset (R199, R200). -/
def softReset (s : State) : State := s.softBlocks.softFeedHold

/-- A power-on reset that ends with the levels found on the input pins. The model's clock, choice counter and
queue of waiting commands go on (log 9). -/
def powerOn (found : InputPins) (s : State) : State :=
  { State.reset with
    pins := found
    secs := Vector.ofFn (fun i => { blocked := found.eyes[i] })
    clears := Vector.ofFn (fun i => { level := found.clears[i] })
    labels := { state := if found.stop then .stopped else .idle }
    host := { rate := found.rate }
    clock := s.clock
    choice := s.choice
    pending := s.pending }

end State

end Sys2Proof.Machine
end

