-- ==== Sys2Proof/Machine/Profile.lean ====
section
/-! DEFINITION. The profile check: the per-strip test, the trends, the trend state (R92 to R100). -/

namespace Sys2Proof.Machine

/-- The update of a trend by a deviation: the exact quotient truncated toward zero (R95). -/
def trendStep (k : Nat) (t d : Int) : Int := t + Int.tdiv (16 * d - t) (2 ^ k)

/-- The level of a dimension from its trend and its settings (R96). -/
def DimCfg.level (c : DimCfg) (t : Int) : TrendState :=
  let m := t.natAbs / 16
  if 0 < c.limit ∧ c.limit ≤ m then .limit
  else if 0 < c.warn ∧ c.warn ≤ m then .warning
  else .normal

/-- The rank of a trend state (R96). -/
def TrendState.rank : TrendState → Nat
  | .normal => 0
  | .warning => 1
  | .limit => 2

/-- The higher of two levels (R96). -/
def TrendState.highest (a b : TrendState) : TrendState := if a.rank < b.rank then b else a

/-- The level of a dimension of the profile check (R96). -/
def ProfileCheck.level (c : ProfileCheck) (i : Fin 4) : TrendState := (c.dims[i]).level c.trends[i]

/-- The candidate state: the highest of the four levels (R96). -/
def ProfileCheck.candidate (c : ProfileCheck) : TrendState :=
  (((c.level 0).highest (c.level 1)).highest (c.level 2)).highest (c.level 3)

/-- The new trend state: the candidate, but LIMIT holds (R96). -/
def ProfileCheck.nextState (c : ProfileCheck) : TrendState :=
  if c.state = .limit then .limit else c.candidate

/-- The deciding dimension of a change to a state, 4 for NORMAL (R97). -/
def ProfileCheck.deciding (c : ProfileCheck) (new : TrendState) : Nat :=
  if new = .normal then 4
  else match (List.finRange 4).find? (fun i => decide (c.level i = new)) with
    | some i => i.val
    | none => 4

/-- The deviations of four measured values (R93). -/
def ProfileCheck.deviations (c : ProfileCheck) (v : Vector Nat 4) : Vector Int 4 :=
  Vector.ofFn (fun i => (v[i] : Int) - (c.dims[i]).nominal)

/-- The strip passes: every deviation within its tolerance (R93). -/
def ProfileCheck.passes (c : ProfileCheck) (d : Vector Int 4) : Bool :=
  (List.finRange 4).all (fun i => decide ((d[i]).natAbs ≤ (c.dims[i]).tolerance))

namespace State

/-- The profile check changed. -/
def modCheck (f : ProfileCheck → ProfileCheck) (s : State) : State := { s with check := f s.check }

/-- The reason "profile" stands while the state is LIMIT with the hold flag on (R98). -/
def syncProfileHold (s : State) : State :=
  s.setReasons (fun r => { r with profile := decide (s.check.state = .limit) && s.check.hold })

/-- The trend state moves, and a change offers a PROFILE report (R96, R97); the feed-hold reason follows
(R98). The report goes before the reason, the model's choice (log 41). -/
def moveTrend (new : TrendState) (tag : Nat) (s : State) : State :=
  if new = s.check.state then s
  else
    ((s.modCheck (fun c => { c with state := new })).offer
      (.profile new s.check.state (s.check.deciding new) s.check.trends tag)).syncProfileHold

/-- The test of the trend state (R96). -/
def trendTest (tag : Nat) (s : State) : State := s.moveTrend s.check.nextState tag

/-- The four trends updated (R95). -/
def updateTrends (d : Vector Int 4) (s : State) : State :=
  s.modCheck (fun c => { c with trends := Vector.ofFn (fun i => trendStep c.shift c.trends[i] d[i]) })

/-- The outcome of a strip's test: deviations and status, and for a fail the count and the disposition
(R93, R94). -/
def judgeStrip (i : Fin 64) (d : Vector Int 4) (s : State) : State :=
  if s.check.passes d then s.writeRecord i (fun r => { r with deviations := some d, profile := .pass })
  else
    ((s.writeRecord i (fun r => { r with deviations := some d, profile := .fail })).modCheck
      (fun c => { c with fails := c.fails + 1 })).writeDisposition i (.runoff .profile)

/-- The profile check takes the four values of a strip (R57, R92). The reports of a failed strip's hand-back go before the
PROFILE report of a change of the trend state, the model's choice (log 46). -/
def takeProfileValues (i : Fin 64) (v : Vector Nat 4) (s : State) : State :=
  if s.check.enable then
    let d := s.check.deviations (Vector.ofFn (fun j => min 20000 v[j]))
    ((s.judgeStrip i d).updateTrends d).trendTest (s.record i).tag
  else s.writeRecord i (fun r => { r with profile := .unchecked })

end State

end Sys2Proof.Machine
end

