-- ==== Sys2Proof/Machine/Settings.lean ====
section
/-! DEFINITION. The settings requests (R30, R69 to R74, R91, R99, R100, R103, R104, R117, R122, R123, R132,
R155, R194, R196), with the payloads of 12.6. The checks of a request stand in the order of its chapter. -/

namespace Sys2Proof.Machine

open Sys2Proof.Config

namespace State

/-! ### SET_SECTION -/

/-- The handoff window of a SET_SECTION payload, clamped (R30). -/
def sectionWindow (p : List Byte) : Nat := clamp 5 200 (u16 p 10)

/-- The checks of the section settings (R30). -/
def sectionChecks (p : List Byte) (s : State) : List (Bool × Status) :=
  [(decide (s.run.state ≠ .config), .wrongState),
   (outside 1 4 (u8 p 0), .noSuch),
   (outside 0 1 (u8 p 1), .badValue),
   (outside 10 5000 (u16 p 3), .badValue),
   (outside 100 20000 (u16 p 8), .badValue),
   (decide (u8 p 0 = 2) && decide (u16 p 8 < u16 p 12 + sectionWindow p + 1), .badValue),
   (decide (u8 p 0 = 4) && decide (u16 p 8 < u16 p 14 + 1), .badValue)]

/-- The checks of the saw settings, for section 2 only (R103, 12.6). -/
def sawChecks (p : List Byte) : List (Bool × Status) :=
  [(decide (u8 p 0 = 2) && outside 1 20000 (u16 p 16), .badValue),
   (decide (u8 p 0 = 2) && badOpt 24 (u8 p 18), .badValue)]

/-- The checks of the end-head settings, for section 3 only (R104, 12.6). -/
def headChecks (p : List Byte) : List (Bool × Status) :=
  [badOpt 6 (u8 p 21), badOpt 6 (u8 p 22), outside 0 20000 (u16 p 23), outside 0 20000 (u16 p 25),
   outside 0 1000 (u16 p 27), outside 0 1000 (u16 p 29), outside 0 1000 (u16 p 31), outside 0 1000 (u16 p 33),
   decide (u16 p 23 < u16 p 27), decide (u16 p 25 < u16 p 31),
   decide (u8 p 21 ≠ 255) && decide (u8 p 21 = u8 p 22)].map
    (fun fails => (decide (u8 p 0 = 3) && fails, .badValue))

/-- A value of a SET_SECTION payload was clamped (R30, R103, R104). -/
def sectionClamped (p : List Byte) : Bool :=
  outside 0 15 (u8 p 5) || outside 0 4095 (u16 p 6) || outside 5 200 (u16 p 10)
    || (decide (u8 p 0 = 2) && outside 20 2000 (u16 p 19)) || (decide (u8 p 0 = 3) && outside 0 200 (u8 p 35))

/-- The settings of a section after SET_SECTION; C is carried for S2 and K_c for S4 only (R30). -/
def sectionCfg (p : List Byte) (c : SectionCfg) : SectionCfg where
  inverted := flag p 1
  divider := u8 p 2
  scale := u16 p 3
  debounce := clamp 0 15 (u8 p 5)
  reversal := clamp 0 4095 (u16 p 6)
  distance := u16 p 8
  window := sectionWindow p
  commit := if u8 p 0 = 2 then u16 p 12 else c.commit
  sort := if u8 p 0 = 4 then u16 p 14 else c.sort

/-- The saw settings that SET_SECTION for section 2 carries (R103). -/
def sawSettings (p : List Byte) (c : CutUnit) : CutUnit :=
  { c with sawPos := u16 p 16, sawLine := optIdx 24 (u8 p 18), sawRecovery := clamp 20 2000 (u16 p 19) }

/-- The end-head settings that SET_SECTION for section 3 carries (R104). -/
def headSettings (p : List Byte) (c : CutUnit) : CutUnit :=
  { c with
    tonguePair := optIdx 6 (u8 p 21)
    groovePair := optIdx 6 (u8 p 22)
    hT := u16 p 23
    hG := u16 p 25
    aT := u16 p 27
    rT := u16 p 29
    aG := u16 p 31
    rG := u16 p 33
    clearance := clamp 0 200 (u8 p 35) }

/-- The settings stored, the divider accumulator cleared, the high mark set (R23, R27, R30, R103, R104). -/
def putSection (p : List Byte) (s : State) : State :=
  (s.modSec (secOf (u8 p 0)) (fun u => { u with cfg := sectionCfg p u.cfg, acc := 0, highMark := u.counter })).modCuts
    (fun c => if u8 p 0 = 2 then sawSettings p c else if u8 p 0 = 3 then headSettings p c else c)

/-- SET_SECTION (R30, R103, R104). -/
def takeSetSection (p : List Byte) (s : State) : State × List Byte :=
  handle 36 (sectionChecks p s ++ sawChecks p ++ headChecks p) (fun s => okaySet (sectionClamped p) (s.putSection p))
    p s

/-! ### SET_OUTPUT and ARM_PAIR -/

/-- A duty of its code (R117, R201). -/
def dutyOf : Nat → Duty
  | 0 => .full
  | 1 => .half
  | 2 => .quarter
  | _ => .eighth

/-- The line configuration of a SET_OUTPUT payload (R117). -/
def lineCfg (p : List Byte) : LineCfg where
  pulse := flag p 1
  width := clamp 5 1000 (u16 p 2)
  holdDuty := flag p 4
  pullIn := clamp 5 500 (u16 p 5)
  duty := dutyOf (u8 p 7)

/-- The line driven off and configured; the feed-hold line is then driven on again while a reason stands
(R117, R181). -/
def putOutput (p : List Byte) (s : State) : State :=
  let l := Fin.ofNat 24 (u8 p 0)
  let s' := s.modLine l (fun x => { x.turnOff with cfg := lineCfg p })
  if s.run.settings.feedLine = some l ∧ s.run.reasons.any = true then s'.feedRequest true l else s'

/-- SET_OUTPUT (R117). -/
def takeSetOutput (p : List Byte) (s : State) : State × List Byte :=
  handle 8
    [(decide (s.run.state ≠ .config), .wrongState),
     (decide (24 ≤ u8 p 0), .noSuch),
     ((s.pairOf (Fin.ofNat 24 (u8 p 0))).isSome, .wrongState),
     (outside 0 1 (u8 p 1), .badValue),
     (badFlag p 4, .badValue),
     (outside 0 3 (u8 p 7), .badValue)]
    (fun s => okaySet (outside 5 1000 (u16 p 2) || outside 5 500 (u16 p 5)) (s.putOutput p)) p s

/-- A line cannot be bound into a pair: it belongs to an armed one, or has hold duty on (R122). -/
def unbindable (s : State) (l : Fin 24) : Bool := (s.pairOf l).isSome || (s.line l).cfg.holdDuty

/-- The pair as armed: its safe state is what the two pins show (R123). -/
def armed (s : State) (a b : Fin 24) (dead : Nat) : Pair :=
  let safe : Combo := ⟨(s.line a).isOn, (s.line b).isOn⟩
  { first := a, second := b, dead := dead, safe := safe, shown := safe, timer := none, target := none }

/-- The pair armed; both line units end what they drive (R123). -/
def putPair (p : List Byte) (s : State) : State :=
  let a := Fin.ofNat 24 (u8 p 1)
  let b := Fin.ofNat 24 (u8 p 2)
  ((s.setPair (Fin.ofNat 6 (u8 p 0)) (some (s.armed a b (clamp 0 250 (u8 p 3))))).modLine a Line.turnOff).modLine b
    Line.turnOff

/-- ARM_PAIR (R122, R123). -/
def takeArmPair (p : List Byte) (s : State) : State × List Byte :=
  handle 4
    [(decide (s.run.state ≠ .config), .wrongState),
     (decide (6 ≤ u8 p 0) || decide (24 ≤ u8 p 1) || decide (24 ≤ u8 p 2), .noSuch),
     ((s.pair (Fin.ofNat 6 (u8 p 0))).isSome, .wrongState),
     (decide (u8 p 1 = u8 p 2), .badValue),
     (s.unbindable (Fin.ofNat 24 (u8 p 1)) || s.unbindable (Fin.ofNat 24 (u8 p 2)), .wrongState)]
    (fun s => okaySet (outside 0 250 (u8 p 3)) (s.putPair p)) p s

/-! ### The shadow bank -/

/-- The shadow bank (04). -/
def shadow (s : State) : Bank := s.solver.active.other

/-- The tests of a write to the shadow bank, after the request's own (R73). -/
def shadowChecks (s : State) : List (Bool × Status) :=
  [(s.solver.commitPending, .pending), (decide (0 < s.unsolved s.shadow), .bankInUse)]

/-- The shadow bank changed. -/
def modShadow (f : BankTable → BankTable) (s : State) : State := s.setTable s.shadow (f (s.table s.shadow))

/-- The seven thresholds of a SET_TRIM payload (12.6). -/
def thresholds (p : List Byte) : Vector Nat 7 := Vector.ofFn (fun i => u16 p (4 + 2 * i.val))

/-- A threshold is above 3001, or below the one before it (R69). -/
def badThresholds (b : Vector Nat 7) : Bool :=
  (List.finRange 7).any (fun i => decide (3001 < b[i]) || (decide (0 < i.val) && decide (b[i] < b.toList.getD (i.val - 1) 0)))

/-- SET_TRIM (R69, R73). -/
def takeSetTrim (p : List Byte) (s : State) : State × List Byte :=
  handle 18
    ([(outside 0 50 (u8 p 0), .badValue),
      (outside 5 100 (u8 p 1), .badValue),
      (outside (u8 p 0) 1000 (u16 p 2), .badValue),
      (badThresholds (thresholds p), .badValue)] ++ s.shadowChecks)
    (fun s => okaySet false (s.modShadow (fun t =>
      { t with tmin := u8 p 0, step := u8 p 1, tend := u16 p 2, bands := thresholds p }))) p s

/-- SET_GRADE (R70, R73). -/
def takeSetGrade (p : List Byte) (s : State) : State × List Byte :=
  handle 12
    ([(decide (8 ≤ u8 p 0), .noSuch),
      (badFlag p 1, .badValue),
      (badChars p 2 8, .badValue),
      (outside 150 3000 (u16 p 10), .badValue)] ++ s.shadowChecks)
    (fun s => okaySet false (s.modShadow (fun t =>
      { t with grades := t.grades.set (Fin.ofNat 8 (u8 p 0)) ⟨flag p 1, chars p 2 8, u16 p 10⟩ }))) p s

/-- A face set of its code (R201). -/
def faceSetOf : Nat → FaceSet
  | 1 => .top
  | 2 => .bottom
  | _ => .both

/-- A rule entry of a SET_RULES payload at an offset (12.4). -/
def ruleAt (p : List Byte) (o : Nat) : GradeRule where
  used := flag p o
  grade := Fin.ofNat 8 (u8 p (o + 1))
  cls := BitVec.ofNat 4 (u8 p (o + 2) / 16)
  mask := BitVec.ofNat 4 (u8 p (o + 2))
  faces := faceSetOf (u8 p (o + 3))
  maxSeverity := BitVec.ofNat 4 (u8 p (o + 4))
  maxCount := u8 p (o + 5)

/-- A rule entry holds a value that is refused (R71, 12.4). -/
def badRule (p : List Byte) (o : Nat) : Bool :=
  badFlag p o || outside 0 7 (u8 p (o + 1)) || outside 1 3 (u8 p (o + 3)) || outside 0 15 (u8 p (o + 4))
    || outside 1 16 (u8 p (o + 5))

/-- The rules with the entries carried written from the start index on (R71). -/
def putRules (p : List Byte) (rules : Vector GradeRule 48) : Vector GradeRule 48 :=
  Vector.ofFn (fun i =>
    if u8 p 0 ≤ i.val ∧ i.val < u8 p 0 + u8 p 1 then ruleAt p (2 + 6 * (i.val - u8 p 0)) else rules[i])

/-- SET_RULES (R71, R73, R203). -/
def takeSetRules (p : List Byte) (s : State) : State × List Byte :=
  handle (2 + 6 * u8 p 1)
    ([(decide (48 ≤ u8 p 0), .noSuch),
      (decide (48 < u8 p 0 + u8 p 1), .noSuch),
      (decide (u8 p 1 = 0), .badValue),
      ((List.range (u8 p 1)).any (fun k => badRule p (2 + 6 * k)), .badValue)] ++ s.shadowChecks)
    (fun s => okaySet false (s.modShadow (fun t => { t with rules := putRules p t.rules }))) p s

/-- SET_PRICES (R72, R73). -/
def takeSetPrices (p : List Byte) (s : State) : State × List Byte :=
  handle 17
    ([(decide (8 ≤ u8 p 0), .noSuch)] ++ s.shadowChecks)
    (fun s => okaySet false (s.modShadow (fun t =>
      { t with prices := t.prices.set (Fin.ofNat 8 (u8 p 0)) (Vector.ofFn (fun i => u16 p (1 + 2 * i.val))) }))) p s

/-- COMMIT_BANK (R74). -/
def takeCommitBank (p : List Byte) (s : State) : State × List Byte :=
  handle 0 [] (fun s =>
    if s.running then
      (if s.solver.commitPending then okay s
      else if s.definesGrade s.shadow then okay (s.modSolver (fun v => { v with commitPending := true }))
      else incomplete 1 0 s)
    else okay s.swapBanks) p s

/-! ### The profile check -/

/-- The offset of a dimension's settings in a SET_PROFILE payload (12.6). -/
def dimAt (i : Fin 4) : Nat := 3 + 8 * i.val

/-- The settings of a dimension, the limit raised to the warn level (R91). -/
def dimCfg (p : List Byte) (i : Fin 4) : DimCfg :=
  let warn := clamp 0 2000 (u16 p (dimAt i + 4))
  ⟨u16 p (dimAt i), clamp 0 2000 (u16 p (dimAt i + 2)), warn, max warn (clamp 0 2000 (u16 p (dimAt i + 6)))⟩

/-- A value of a dimension was clamped (R91). -/
def dimClamped (p : List Byte) (i : Fin 4) : Bool :=
  decide ((dimCfg p i).tolerance ≠ u16 p (dimAt i + 2)) || decide ((dimCfg p i).warn ≠ u16 p (dimAt i + 4))
    || decide ((dimCfg p i).limit ≠ u16 p (dimAt i + 6))

/-- The settings stored, the hold followed, the trend state tested once with tag 0 (R98, R100). The reason follows the
hold flag before the test and its report, the model's choice (log 41). -/
def putProfile (p : List Byte) (s : State) : State :=
  ((s.modCheck (fun c => { c with
      enable := flag p 0
      hold := flag p 1
      shift := clamp 1 8 (u8 p 2)
      dims := Vector.ofFn (dimCfg p) })).syncProfileHold).trendTest 0

/-- SET_PROFILE (R91, R100). -/
def takeSetProfile (p : List Byte) (s : State) : State × List Byte :=
  handle 35
    ([(badFlag p 0, .badValue), (badFlag p 1, .badValue)]
      ++ (List.finRange 4).map (fun i => (outside 0 20000 (u16 p (dimAt i)), .badValue)))
    (fun s => okaySet (outside 1 8 (u8 p 2) || (List.finRange 4).any (dimClamped p)) (s.putProfile p)) p s

/-- The trends zeroed, the state NORMAL, the reason removed (R99), after the report, the model's choice (log 41). -/
def clearTrends (s : State) : State :=
  ((s.modCheck (fun c => { c with trends := Vector.replicate 4 0 })).moveTrend .normal 0).syncProfileHold

/-- CLEAR_TREND (R99). -/
def takeClearTrend (p : List Byte) (s : State) : State × List Byte := handle 0 [] (fun s => okay s.clearTrends) p s

/-! ### SET_POCKET -/

/-- The pocket configuration of a payload (12.4), clamped (R132). -/
def pocketCfg (p : List Byte) : PocketCfg where
  inService := flag p 1
  isBin := flag p 2
  grade := Fin.ofNat 8 (u8 p 3)
  kicker := optIdx 24 (u8 p 4)
  position := u16 p 5
  offset := u16 p 7
  alternate := optIdx 12 (u8 p 9)
  rows := u8 p 10
  rowLen := u16 p 11
  joint := clamp 0 10 (u8 p 13)
  closeGap := clamp 0 1000 (u16 p 14)
  maxPieces := u8 p 16
  bonus := clamp 0 50 (u8 p 17)
  tolerance := clamp 0 100 (u8 p 18)
  capacity := u16 p 19

/-- The state of a pocket after SET_POCKET (R132). -/
def configuredState (p : List Byte) : PocketState := if flag p 1 then .empty else .offline

/-- The configuration stored and the pocket put in EMPTY or OFFLINE; a change of state is reported
(R132, R151). -/
def putPocket (p : List Byte) (s : State) : State :=
  let n := Fin.ofNat 12 (u8 p 0)
  let s' := s.modPocket n (fun k => { k with cfg := pocketCfg p })
  if (s.pocket n).state = configuredState p then s' else s'.movePocket n (configuredState p) .configured 0

/-- The checks of SET_POCKET (R132). -/
def pocketChecks (p : List Byte) (s : State) : List (Bool × Status) :=
  let n := Fin.ofNat 12 (u8 p 0)
  [(decide (12 ≤ u8 p 0), .noSuch),
   (decide ((s.pocket n).state ≠ .empty) && decide ((s.pocket n).state ≠ .offline), .wrongState),
   ((s.pocket n).cfg.isBin && decide (s.pendingKicks n ≠ 0), .wrongState),
   (badFlag p 1, .badValue),
   (outside 0 1 (u8 p 2), .badValue),
   (outside 0 7 (u8 p 3), .badValue),
   (badOpt 24 (u8 p 4), .noSuch),
   (decide (u8 p 4 = 255) && flag p 1, .badValue),
   (outside 0 20000 (u16 p 5), .badValue),
   (outside 0 3000 (u16 p 7), .badValue),
   (badOpt 12 (u8 p 9), .noSuch),
   (decide (u8 p 9 = u8 p 0), .badValue),
   (outside 1 12 (u8 p 10), .badValue),
   (outside 300 2500 (u16 p 11), .badValue),
   (outside 1 200 (u8 p 16), .badValue),
   (outside 1 500 (u16 p 19), .badValue)]

/-- A value of a pocket configuration was clamped (R132). -/
def pocketClamped (p : List Byte) : Bool :=
  outside 0 10 (u8 p 13) || outside 0 1000 (u16 p 14) || outside 0 50 (u8 p 17) || outside 0 100 (u8 p 18)

/-- SET_POCKET (R132). -/
def takeSetPocket (p : List Byte) (s : State) : State × List Byte :=
  handle 21 (pocketChecks p s) (fun s => okaySet (pocketClamped p) (s.putPocket p)) p s

/-! ### SET_LINE -/

/-- The line settings of a payload, clamped (R196). -/
def lineSettings (p : List Byte) : LineSettings where
  regrade := optIdx 12 (u8 p 0)
  overflow := optIdx 12 (u8 p 1)
  feedLine := optIdx 24 (u8 p 2)
  threshold := clamp 2 16 (u8 p 3)
  tolerance := clamp 1 50 (u8 p 4)

/-- The feed-hold role moves from a former line: level-off to it, and level-on to the new line while a
reason stands (R181). A role that moves to none has the former line asked off too, the model's choice (log 47). -/
def moveFeedLine (former : Option (Fin 24)) (s : State) : State :=
  if former = s.run.settings.feedLine then s
  else
    let s' := match former with
      | some l => s.feedRequest false l
      | none => s
    if s'.run.reasons.any then s'.feedLine true else s'

/-- The settings stored; the feed-hold line moves, and a changed threshold is tested (R181, R182, R196;
the order is log 26). -/
def putLine (p : List Byte) (s : State) : State :=
  let s' := (s.modRun (fun r => { r with settings := lineSettings p })).moveFeedLine s.run.settings.feedLine
  if (lineSettings p).threshold = s.run.settings.threshold then s' else s'.lowTest

/-- SET_LINE (R196). -/
def takeSetLine (p : List Byte) (s : State) : State × List Byte :=
  handle 5
    [(badOpt 12 (u8 p 0), .noSuch),
     (badOpt 12 (u8 p 1), .noSuch),
     (badOpt 24 (u8 p 2), .noSuch),
     (s.running && (decide (u8 p 0 = 255) || decide (u8 p 1 = 255)), .wrongState)]
    (fun s => okaySet (outside 2 16 (u8 p 3) || outside 1 50 (u8 p 4)) (s.putLine p)) p s

/-! ### SET_LABEL and SET_REPORTS -/

/-- A flow mode of its code (R201). -/
def flowOf : Nat → FlowMode
  | 0 => .free
  | 1 => .paced
  | 2 => .readyLevel
  | _ => .readyPulse

/-- The label channel with the settings of a payload; a change of flow mode clears the permit, and the
serial counter takes the next serial when the flag says so (R155, R156, R161). -/
def labelSettings (p : List Byte) (c : LabelChannel) : LabelChannel :=
  { c with
    species := chars p 0 4
    lot := chars p 4 8
    width := u16 p 12
    copies := u8 p 14
    flow := flowOf (u8 p 15)
    pace := clamp 100 60000 (u16 p 16)
    ackTimeout := clamp 100 10000 (u16 p 18)
    serial := if flag p 20 then u32 p 21 else c.serial
    permit := if flowOf (u8 p 15) = c.flow then c.permit else false }

/-- The settings stored; a change of flow mode or pace interval may let a send start (R155, R160). -/
def putLabel (p : List Byte) (s : State) : State :=
  let s' := s.modLabels (labelSettings p)
  if s'.labels.flow = s.labels.flow ∧ s'.labels.pace = s.labels.pace then s' else s'.trySend

/-- SET_LABEL (R155). -/
def takeSetLabel (p : List Byte) (s : State) : State × List Byte :=
  handle 25
    [(badChars p 0 4, .badValue),
     (badChars p 4 8, .badValue),
     (decide (u16 p 12 ≠ 0) && outside 300 3000 (u16 p 12), .badValue),
     (outside 1 3 (u8 p 14), .badValue),
     (outside 0 3 (u8 p 15), .badValue),
     (badFlag p 20, .badValue),
     (flag p 20 && outside 1 maxSerial (u32 p 21), .badValue)]
    (fun s => okaySet (outside 100 60000 (u16 p 16) || outside 100 10000 (u16 p 18)) (s.putLabel p)) p s

/-- SET_REPORTS (R194). -/
def takeSetReports (p : List Byte) (s : State) : State × List Byte :=
  handle 1 [] (fun s => okaySet false { s with reports := { s.reports with mask := p.getD 0 0 } }) p s

end State

end Sys2Proof.Machine
end

