-- ==== Sys2Proof/Machine/Requests.lean ====
section
/-! DEFINITION. The request queue of the host link (R188 to R190), the answer to each kind (12.2), and the ends
of replies and reports (R189, R191, R193, R199). -/

namespace Sys2Proof.Machine

open Sys2Proof.Config

namespace State

/-- RESET: the reply alone; the soft reset takes effect at its end (R199). -/
def takeReset (p : List Byte) (s : State) : State × List Byte := handle 0 [] okay p s

/-- The answer to a request by its kind: the state after it and the reply's payload (R190, 12.2). -/
def answer (f : Frame) (s : State) : State × List Byte :=
  match f.kind.toNat with
  | 0x01 => s.takeIdentify f.payload
  | 0x02 => s.takeSetSection f.payload
  | 0x03 => s.takeSetOutput f.payload
  | 0x04 => s.takeArmPair f.payload
  | 0x05 => s.takeSetTrim f.payload
  | 0x06 => s.takeSetGrade f.payload
  | 0x07 => s.takeSetRules f.payload
  | 0x08 => s.takeSetPrices f.payload
  | 0x09 => s.takeCommitBank f.payload
  | 0x0A => s.takeSetProfile f.payload
  | 0x0B => s.takeSetPocket f.payload
  | 0x0C => s.takeSetLine f.payload
  | 0x0D => s.takeSetLabel f.payload
  | 0x0E => s.takeSetReports f.payload
  | 0x10 => s.takeStartLine f.payload
  | 0x11 => s.takeStopLine f.payload
  | 0x12 => s.takeHaltLine f.payload
  | 0x13 => s.takeClearHalt f.payload
  | 0x14 => s.takeFeedHold f.payload
  | 0x15 => s.takeReset f.payload
  | 0x16 => s.takeTestOutput f.payload
  | 0x18 => s.takeClosePocket f.payload
  | 0x19 => s.takeHoldPocket f.payload
  | 0x1A => s.takeReleasePocket f.payload
  | 0x1B => s.takeClearPocket f.payload
  | 0x20 => s.takePauseLabels f.payload
  | 0x21 => s.takeResumeLabels f.payload
  | 0x22 => s.takeSkipLabel f.payload
  | 0x23 => s.takeReprintLabel f.payload
  | 0x28 => s.takeClearTrend f.payload
  | 0x30 => s.takeGetState f.payload
  | 0x31 => s.takeGetStrip f.payload
  | 0x32 => s.takeGetPocket f.payload
  | 0x33 => s.takeGetLabels f.payload
  | 0x34 => s.takeGetCounts f.payload
  | 0x35 => s.takeClearCounts f.payload
  | 0x36 => s.takeGetList f.payload
  | _ => refuse .unknownKind s

/-- The reply to a request (R190). -/
def replyFrame (f : Frame) (payload : List Byte) : Frame := ⟨f.kind + 0x80, f.id, payload⟩

/-- A request is taken: checked and acted on, and its reply handed to the arbiter (R189). -/
def takeRequest (f : Frame) (s : State) : State := (s.answer f).1.handReply (replyFrame f (s.answer f).2)

/-- The head of the request queue is taken (R189). -/
def takeHead (s : State) : State :=
  match s.host.requests with
  | [] => s
  | f :: _ => s.takeRequest f

/-- The host link changed. -/
def modHost (g : HostLink → HostLink) (s : State) : State := { s with host := g s.host }

/-- A request joins the queue, and is taken when it becomes the head (R189). -/
def queueRequest (f : Frame) (s : State) : State :=
  let s' := s.modHost (fun h => { h with requests := h.requests ++ [f] })
  if s.host.requests.isEmpty then s'.takeHead else s'

/-- A frame of a request kind (R188). -/
def isRequest (f : Frame) : Bool := decide (1 ≤ f.kind.toNat) && decide (f.kind.toNat ≤ 0x3F)

/-- A frame received whole on the host link (R187 to R189). -/
def hostArrive (f : Frame) (s : State) : State :=
  let s' := s.modHost (fun h => { h with rxHost := .hunting })
  if isRequest f then
    (if s.host.requests.length < nRequests then s'.queueRequest f
    else s'.modHost (fun h => { h with overrun := h.overrun + 1 }))
  else s'.modHost (fun h => { h with frameErr := h.frameErr + 1 })

/-- The transmitter becomes IDLE, and the arbiter picks the next frame (R191). -/
def txIdle (s : State) : State := (s.modHost (fun h => { h with tx := .idle })).arbitrate

/-- The OK reply to RESET (R199). -/
def isResetReply (f : Frame) : Bool := decide (f.kind = 0x95) && decide (f.payload = [Status.ok.code])

/-- The last byte of a reply is sent: the request leaves the queue, the next is taken, and the arbiter picks the
next frame (R189, R191, log 13); the end of the OK reply to RESET is the soft reset (R199). -/
def replySent (s : State) : State :=
  match s.host.tx with
  | .reply f =>
    if isResetReply f then s.softReset
    else ((s.modHost (fun h => { h with requests := h.requests.tail })).takeHead).txIdle
  | _ => s

/-- The last byte of a report is sent: it leaves the queue, and the arbiter picks the next frame
(R191, R193). -/
def reportSent (s : State) : State :=
  match s.host.tx with
  | .report => ({ s with reports := { s.reports with queue := s.reports.queue.tail } }).txIdle
  | _ => s

end State

end Sys2Proof.Machine
end

