-- ==== Sys2Proof/Machine/Scan.lean ====
section
/-! DEFINITION. The scan intake: the intake queue, the head counters, the frames (R52 to R63). -/

namespace Sys2Proof.Machine

open Sys2Proof.Config

/-- The head of a face (R55). -/
def Face.head : Face → Head
  | .top => .top
  | .bottom => .bottom

/-- A face's status on a record (R3). -/
def Record.face (r : Record) : Face → FaceStatus
  | .top => r.top
  | .bottom => r.bottom

/-- A record with a face's status replaced. -/
def Record.setFace (r : Record) (f : Face) (st : FaceStatus) : Record :=
  match f with
  | .top => { r with top := st }
  | .bottom => { r with bottom := st }

/-- A face's tally (R55). -/
def Tallies.face (t : Tallies) : Face → Tally
  | .top => t.top
  | .bottom => t.bottom

/-- Tallies with one face's replaced. -/
def Tallies.setFace (t : Tallies) (f : Face) (y : Tally) : Tallies :=
  match f with
  | .top => { t with top := y }
  | .bottom => { t with bottom := y }

/-- A head's counter after a frame: +4 for a bad one, −1 for a good one, within 0 to 63 (R58). -/
def HeadUnit.count (h : HeadUnit) (bad : Bool) : Nat := if bad then min 63 (h.errors + 4) else h.errors - 1

/-- A head after a frame: its counter, and its state by the limits 40 and 8 (R59). -/
def HeadUnit.after (h : HeadUnit) (bad : Bool) : HeadUnit :=
  let n := h.count bad
  { errors := n
    degraded := if h.degraded then !(decide (n ≤ 8)) else decide (40 ≤ n) }

/-- A raw defect entry clamped to a strip of length L (R55). -/
def RawDefect.clamped (d : RawDefect) (face : Face) (len : Nat) : Defect :=
  let s := if len ≤ d.start then len - 1 else d.start
  ⟨d.cls, face, s, min d.extent (len - s), d.severity⟩

/-- A frame of the intake queue is malformed (R54). -/
def Frame.isMalformed (f : Frame) : Bool :=
  if f.kind = 0x11 then (parseDefects f.payload).isNone
  else if f.kind = 0x12 then (parseScanEnd f.payload).isNone
  else if f.kind = 0x13 then (parseProfile f.payload).isNone
  else true

namespace State

/-- The scan intake changed. -/
def modScan (f : ScanIntake → ScanIntake) (s : State) : State := { s with scan := f s.scan }

/-- A head (R58). -/
def head (s : State) : Head → HeadUnit
  | .top => s.scan.top
  | .bottom => s.scan.bottom
  | .profile => s.scan.profile

/-- The state with a head replaced. -/
def setHead (h : Head) (u : HeadUnit) (s : State) : State :=
  match h with
  | .top => s.modScan (fun c => { c with top := u })
  | .bottom => s.modScan (fun c => { c with bottom := u })
  | .profile => s.modScan (fun c => { c with profile := u })

/-- A head's counter takes a good or a bad frame in RUN or DRAIN; a change of its state offers LINK
(R58, R59). -/
def headFrame (h : Head) (bad : Bool) (s : State) : State :=
  if s.running then
    let u := (s.head h).after bad
    let s' := s.setHead h u
    if u.degraded = (s.head h).degraded then s' else s'.offer (.link h u.degraded u.errors)
  else s

/-- A bad frame whose head may be readable (R52, R54). -/
def badFrame (h : Option Head) (s : State) : State :=
  match h with
  | some x => s.headFrame x true
  | none => s

/-- The scan link error count rises, and the head of the failed frame is judged if it is readable (R52). -/
def scanLinkError (h : Option Head) (s : State) : State :=
  (s.modScan (fun c => { c with linkErr := c.linkErr + 1 })).badFrame h

/-- A frame received whole is offered to the intake queue (R53). -/
def intakeOffer (f : Frame) (s : State) : State :=
  if s.scan.queue.length < nIntake then s.modScan (fun c => { c with queue := c.queue ++ [f] })
  else s.modScan (fun c => { c with overflow := c.overflow + 1 })

/-- A malformed frame taken (R54). -/
def malformed (f : Frame) (s : State) : State := s.scanLinkError (readableHead f.kind f.payload)

/-- A frame with an unknown tag (R54). -/
def unknownTag (h : Head) (s : State) : State :=
  (s.modScan (fun c => { c with unknown := c.unknown + 1 })).headFrame h true

/-- A late frame: counted, and good for the head (R54, R58). -/
def lateFrame (h : Head) (s : State) : State :=
  (s.modScan (fun c => { c with late := c.late + 1 })).headFrame h false

/-- A DEFECTS or SCAN_END frame for a record's face is late (R54). -/
def faceLate (s : State) (i : Fin 64) (f : Face) : Bool :=
  (s.record i).committed || decide ((s.record i).face f ≠ .awaiting)

/-- A face leaves AWAITING badly, and the strip is unscanned (R55, R56, R60, R62). -/
def spoilFace (i : Fin 64) (f : Face) (st : FaceStatus) (s : State) : State :=
  (s.writeRecord i (fun r => r.setFace f st)).markUnscanned i

/-- A face tally changed. -/
def modTally (i : Fin 64) (f : Face) (g : Tally → Tally) (s : State) : State :=
  s.modScan (fun c => { c with tallies := c.tallies.set i ((c.tallies[i]).setFace f (g ((c.tallies[i]).face f))) })

/-- A face tally (R55). -/
def tally (s : State) (i : Fin 64) (f : Face) : Tally := (s.scan.tallies[i]).face f

/-- A defect entry joins the end of the list, and the tally's count rises (R55). -/
def joinDefect (i : Fin 64) (f : Face) (d : RawDefect) (s : State) : State :=
  (s.writeRecord i (fun r => { r with defects := r.defects ++ [d.clamped f r.len] })).modTally i f
    (fun t => { t with count := t.count + 1 })

/-- The entries of a frame in order; an entry that finds 16 held makes the face OVERFLOW (R55). -/
def attachDefects (i : Fin 64) (f : Face) : List RawDefect → State → State
  | [], s => s
  | d :: ds, s =>
    if (s.record i).defects.length < nDefects then attachDefects i f ds (s.joinDefect i f d)
    else s.spoilFace i f .overflow

/-- An attachable DEFECTS frame of a NORMAL head (R55). -/
def attachFrame (i : Fin 64) (d : DefectsFrame) (s : State) : State :=
  let s' := attachDefects i d.face d.entries s
  if (s'.record i).face d.face = .awaiting then s'.modTally i d.face (fun t => { t with more := d.more }) else s'

/-- A DEFECTS frame taken in RUN or DRAIN (R54, R55, R60). -/
def takeDefects (f : Frame) (s : State) : State :=
  match parseDefects f.payload with
  | none => s.malformed f
  | some d =>
    match s.findTag d.tag with
    | none => s.unknownTag d.face.head
    | some i =>
      if s.faceLate i d.face then s.lateFrame d.face.head
      else if (s.head d.face.head).degraded then (s.spoilFace i d.face .degraded).headFrame d.face.head false
      else (s.attachFrame i d).headFrame d.face.head false

/-- The completion test (R61). -/
def completionTest (i : Fin 64) (s : State) : State :=
  let r := s.record i
  if r.top = .complete ∧ r.bottom = .complete ∧ r.disp = .undecided then s.solverJoin i else s

/-- A SCAN_END of a NORMAL head closes its face (R56). -/
def closeFace (i : Fin 64) (f : Face) (total : Nat) (s : State) : State :=
  if (s.tally i f).count = total ∧ (s.tally i f).more = false then
    ((s.writeRecord i (fun r => r.setFace f .complete)).completionTest i).headFrame f.head false
  else (s.spoilFace i f .failed).headFrame f.head true

/-- A SCAN_END frame taken in RUN or DRAIN (R54, R56, R60). -/
def takeScanEnd (f : Frame) (s : State) : State :=
  match parseScanEnd f.payload with
  | none => s.malformed f
  | some (tag, face, total) =>
    match s.findTag tag with
    | none => s.unknownTag face.head
    | some i =>
      if s.faceLate i face then s.lateFrame face.head
      else if (s.head face.head).degraded then (s.spoilFace i face .degraded).headFrame face.head false
      else s.closeFace i face total

/-- A PROFILE frame taken in RUN or DRAIN (R54, R57, R60). -/
def takeProfile (f : Frame) (s : State) : State :=
  match parseProfile f.payload with
  | none => s.malformed f
  | some (tag, v) =>
    match s.findTag tag with
    | none => s.unknownTag .profile
    | some i =>
      if (s.record i).sortCommitted ∨ (s.record i).profile ≠ .awaiting then s.lateFrame .profile
      else if s.scan.profile.degraded then
        (s.writeRecord i (fun r => { r with profile := .unchecked })).headFrame .profile false
      else (s.takeProfileValues i v).headFrame .profile false

/-- The frame at the head of the intake queue leaves it and is dealt with; in CONFIG and HALT it is
discarded (R53). -/
def takeFrame (deal : Frame → State → State) (s : State) : State :=
  match s.scan.queue with
  | [] => s
  | f :: rest =>
    let s' := s.modScan (fun c => { c with queue := rest })
    if s.running then deal f s' else s'

end State

end Sys2Proof.Machine
end

