-- ==== Sys2Proof/Machine/ScanCommands.lean ====
section
/-! DEFINITION. The meanings of the commands of the scan link and the intake queue. -/

namespace Sys2Proof.Machine

namespace State

/-- The receiver of the scan link hunts again (R187). -/
def scanHunts (s : State) : State := { s with host := { s.host with rxScan := .hunting } }

/-- The frame at the head of the intake queue fits a row (R53, log 4). -/
def headFits (s : State) (test : Frame → Bool) : Bool :=
  match s.scan.queue with
  | [] => false
  | f :: _ => test f

end State

/-- SCAN_START_SENT: the frame at the head leaves the outbound queue (R51). -/
def execScanStartSent (s : State) : Host.Outcome State Fault Refusal :=
  .next (s.modScan (fun c => { c with starts := c.starts.tail }))

/-- SCAN_FRAME_RECEIVED: a frame received whole is offered to the intake queue (R53, R187). -/
def execScanFrameReceived (kind id : Byte) (payload : List Byte) (s : State) : Host.Outcome State Fault Refusal :=
  .next (s.scanHunts.intakeOffer ⟨kind, id, payload⟩)

/-- DEFECTS: a DEFECTS frame at the head of the intake queue is taken (R53 to R55, R60). -/
def execDefects (s : State) : Host.Outcome State Fault Refusal :=
  .next (if s.headFits (fun f => decide (f.kind = 0x11)) then s.takeFrame State.takeDefects else s)

/-- SCAN_END: a SCAN_END frame at the head of the intake queue is taken (R53, R54, R56, R60, R61). -/
def execScanEnd (s : State) : Host.Outcome State Fault Refusal :=
  .next (if s.headFits (fun f => decide (f.kind = 0x12)) then s.takeFrame State.takeScanEnd else s)

/-- PROFILE: a PROFILE frame at the head of the intake queue is taken (R53, R54, R57, R60, R92). -/
def execProfile (s : State) : Host.Outcome State Fault Refusal :=
  .next (if s.headFits (fun f => decide (f.kind = 0x13)) then s.takeFrame State.takeProfile else s)

/-- MALFORMED_SCAN_FRAME: a malformed frame at the head of the intake queue is taken, of any kind (R53, R54). -/
def execMalformedScanFrame (s : State) : Host.Outcome State Fault Refusal :=
  .next (if s.headFits Frame.isMalformed then s.takeFrame State.malformed else s)

end Sys2Proof.Machine
end

