-- ==== Sys2Proof/Machine/Links.lean ====
section
/-! DEFINITION. The meanings of the link commands: failed frames, gaps, host frames, replies and reports sent
(R52, R187 to R193); and the bytes that a link takes. -/

namespace Sys2Proof.Machine

/-- The head of a failed frame, readable only on a frame received to its end (R52). -/
def failedHead (f : Option Frame) : Option Head := f.bind (fun x => readableHead x.kind x.payload)

namespace State

/-- A link's receiver (R187). -/
def receiver (s : State) : Link → Receiver
  | .host => s.host.rxHost
  | .scan => s.host.rxScan
  | .printer => s.host.rxPrinter

/-- The state with a link's receiver replaced. -/
def setReceiver (link : Link) (r : Receiver) (s : State) : State :=
  match link with
  | .host => s.modHost (fun c => { c with rxHost := r })
  | .scan => s.modHost (fun c => { c with rxScan := r })
  | .printer => s.modHost (fun c => { c with rxPrinter := r })

/-- A frame fails on a link: the receiver hunts, and the link's error count rises (R52, R163, R187). -/
def linkError (link : Link) (h : Option Head) (s : State) : State :=
  match link with
  | .host => s.modHost (fun c => { c with rxHost := .hunting, frameErr := c.frameErr + 1 })
  | .scan => s.scanHunts.scanLinkError h
  | .printer => s.printerError

/-- A frame received whole on the printer link: an ACK, a NAK, or malformed (R163, 12.5). -/
def printerFrame (f : Frame) (s : State) : State :=
  if isPrinterAnswer f.kind f.payload then
    (if f.kind = 0x11 then s.printerHunts.takeAck (u32 f.payload 0)
    else s.printerHunts.takeNak (u32 f.payload 0) (f.payload.getD 4 0))
  else s.printerError

/-- A frame received whole is handed to its link's owner (R53, R163, R187, R188). -/
def frameArrives (link : Link) (f : Frame) (s : State) : State :=
  match link with
  | .host => s.hostArrive f
  | .scan => s.scanHunts.intakeOffer f
  | .printer => s.printerFrame f

/-- A byte arrives on a link (R187). -/
def takeByte (link : Link) (s : State) (x : LineByte) : State :=
  match (s.receiver link).take x with
  | (r, .nothing) => s.setReceiver link r
  | (_, .whole f) => s.frameArrives link f
  | (_, .failed f) => s.linkError link (failedHead f)

/-- Bytes arrive on a link, one after another; those after a failure are hunted through (R187). -/
def takeBytes (link : Link) (bytes : List LineByte) (s : State) : State := bytes.foldl (takeByte link) s

/-- More than 5 ms pass after the last byte: a frame being received fails, and a receiver that hunts has none
(R187). -/
def gap (link : Link) (s : State) : State :=
  match s.receiver link with
  | .hunting => s
  | .receiving _ => s.linkError link none

end State

/-- FRAME_ERROR: the bytes of the event are taken; the frame that fails among them is discarded and counted, and the
bytes after it are hunted through (R52, R187, log 23). -/
def execFrameError (link : Link) (bytes : List LineByte) (s : State) : Host.Outcome State Fault Refusal :=
  .next (s.takeBytes link bytes)

/-- LINK_GAP_TIMEOUT: the bytes of the event are taken, and then the gap passes (R52, R187, log 23). -/
def execLinkGapTimeout (burst : Burst) (s : State) : Host.Outcome State Fault Refusal :=
  .next ((s.takeBytes burst.link burst.bytes).gap burst.link)

/-- HOST_FRAME_RECEIVED (R188, R189). -/
def execHostFrameReceived (kind id : Byte) (payload : List Byte) (s : State) : Host.Outcome State Fault Refusal :=
  .next (s.hostArrive ⟨kind, id, payload⟩)

/-- REPLY_SENT (R189, R191, R199). -/
def execReplySent (s : State) : Host.Outcome State Fault Refusal := .next s.replySent

/-- REPORT_SENT (R191, R193). -/
def execReportSent (s : State) : Host.Outcome State Fault Refusal := .next s.reportSent

/-- UNKNOWN_KIND: a request of an unassigned kind (R190). -/
def execUnknownKind (kind id : Byte) (payload : List Byte) (s : State) : Host.Outcome State Fault Refusal :=
  .next (s.hostArrive ⟨kind, id, payload⟩)

end Sys2Proof.Machine
end

