-- ==== Sys2Proof/Machine/PocketInput.lean ====
section
/-! DEFINITION. The meaning of the pocket-clear inputs (R149, R150). -/

namespace Sys2Proof.Machine

namespace State

/-- The filter of a clear input changed. -/
def setClear (p : Fin 12) (f : ClearFilter) (s : State) : State := { s with clears := s.clears.set p f }

/-- The raw level of a clear input changes: the 10 ms begin when it leaves the filtered level, and are dropped
when it returns (R149). -/
def clearInput (p : Fin 12) (active : Bool) (s : State) : State :=
  let s' := { s with pins := { s.pins with clears := s.pins.clears.set p active } }
  let f := s.clears[p]
  if active = f.level then s'.setClear p { f with pending := none }
  else if f.pending.isSome then s'
  else s'.setClear p { f with pending := some (s.clock + 10) }

/-- The raw level has been held for 10 ms: the filtered level takes it, and a change to active is a clear edge
(R149). -/
def clearHeld (p : Fin 12) (s : State) : State :=
  match s.clears[p].pending with
  | none => s
  | some t =>
    let s' := (s.clockTo t).setClear p { level := !s.clears[p].level, pending := none }
    if s.clears[p].level then s' else s'.clearEdge p

end State

/-- CLEAR_EDGE (R149, R150). -/
def execClearEdge (p : Fin 12) (event : ClearEvent) (s : State) : Host.Outcome State Fault Refusal :=
  .next (match event with
    | .takes active => s.clearInput p active
    | .held => s.clearHeld p)

end Sys2Proof.Machine
end

