-- ==== Sys2Proof/Machine/RequestCommands.lean ====
section
/-! DEFINITION. The meanings of the request rows: a frame of that kind is received whole on the host link, and is
taken at once when it finds the request queue empty (R188 to R190, log 2). The rule of each request is that of
its answer. -/

namespace Sys2Proof.Machine

/-- IDENTIFY (R195). -/
def execIdentify (id : Byte) (payload : List Byte) (s : State) : Host.Outcome State Fault Refusal :=
  .next (s.hostArrive ⟨0x01, id, payload⟩)

/-- SET_SECTION (R30, R103, R104). -/
def execSetSection (id : Byte) (payload : List Byte) (s : State) : Host.Outcome State Fault Refusal :=
  .next (s.hostArrive ⟨0x02, id, payload⟩)

/-- SET_OUTPUT (R117). -/
def execSetOutput (id : Byte) (payload : List Byte) (s : State) : Host.Outcome State Fault Refusal :=
  .next (s.hostArrive ⟨0x03, id, payload⟩)

/-- ARM_PAIR (R122, R123). -/
def execArmPair (id : Byte) (payload : List Byte) (s : State) : Host.Outcome State Fault Refusal :=
  .next (s.hostArrive ⟨0x04, id, payload⟩)

/-- SET_TRIM (R69, R73). -/
def execSetTrim (id : Byte) (payload : List Byte) (s : State) : Host.Outcome State Fault Refusal :=
  .next (s.hostArrive ⟨0x05, id, payload⟩)

/-- SET_GRADE (R70, R73). -/
def execSetGrade (id : Byte) (payload : List Byte) (s : State) : Host.Outcome State Fault Refusal :=
  .next (s.hostArrive ⟨0x06, id, payload⟩)

/-- SET_RULES (R71, R73). -/
def execSetRules (id : Byte) (payload : List Byte) (s : State) : Host.Outcome State Fault Refusal :=
  .next (s.hostArrive ⟨0x07, id, payload⟩)

/-- SET_PRICES (R72, R73). -/
def execSetPrices (id : Byte) (payload : List Byte) (s : State) : Host.Outcome State Fault Refusal :=
  .next (s.hostArrive ⟨0x08, id, payload⟩)

/-- COMMIT_BANK (R74). -/
def execCommitBank (id : Byte) (payload : List Byte) (s : State) : Host.Outcome State Fault Refusal :=
  .next (s.hostArrive ⟨0x09, id, payload⟩)

/-- SET_PROFILE (R91, R100). -/
def execSetProfile (id : Byte) (payload : List Byte) (s : State) : Host.Outcome State Fault Refusal :=
  .next (s.hostArrive ⟨0x0A, id, payload⟩)

/-- CLEAR_TREND (R99). -/
def execClearTrend (id : Byte) (payload : List Byte) (s : State) : Host.Outcome State Fault Refusal :=
  .next (s.hostArrive ⟨0x28, id, payload⟩)

/-- SET_POCKET (R132). -/
def execSetPocket (id : Byte) (payload : List Byte) (s : State) : Host.Outcome State Fault Refusal :=
  .next (s.hostArrive ⟨0x0B, id, payload⟩)

/-- SET_LINE (R196). -/
def execSetLine (id : Byte) (payload : List Byte) (s : State) : Host.Outcome State Fault Refusal :=
  .next (s.hostArrive ⟨0x0C, id, payload⟩)

/-- SET_LABEL (R155). -/
def execSetLabel (id : Byte) (payload : List Byte) (s : State) : Host.Outcome State Fault Refusal :=
  .next (s.hostArrive ⟨0x0D, id, payload⟩)

/-- SET_REPORTS (R194). -/
def execSetReports (id : Byte) (payload : List Byte) (s : State) : Host.Outcome State Fault Refusal :=
  .next (s.hostArrive ⟨0x0E, id, payload⟩)

/-- START_LINE (R174, R175). -/
def execStartLine (id : Byte) (payload : List Byte) (s : State) : Host.Outcome State Fault Refusal :=
  .next (s.hostArrive ⟨0x10, id, payload⟩)

/-- STOP_LINE (R176, R177). -/
def execStopLine (id : Byte) (payload : List Byte) (s : State) : Host.Outcome State Fault Refusal :=
  .next (s.hostArrive ⟨0x11, id, payload⟩)

/-- HALT_LINE (R178, R179). -/
def execHaltLine (id : Byte) (payload : List Byte) (s : State) : Host.Outcome State Fault Refusal :=
  .next (s.hostArrive ⟨0x12, id, payload⟩)

/-- CLEAR_HALT (R180). -/
def execClearHalt (id : Byte) (payload : List Byte) (s : State) : Host.Outcome State Fault Refusal :=
  .next (s.hostArrive ⟨0x13, id, payload⟩)

/-- FEED_HOLD (R183). -/
def execFeedHold (id : Byte) (payload : List Byte) (s : State) : Host.Outcome State Fault Refusal :=
  .next (s.hostArrive ⟨0x14, id, payload⟩)

/-- RESET (R199). -/
def execReset (id : Byte) (payload : List Byte) (s : State) : Host.Outcome State Fault Refusal :=
  .next (s.hostArrive ⟨0x15, id, payload⟩)

/-- TEST_OUTPUT_LEVEL: TEST_OUTPUT of form 0 (R129). -/
def execTestOutputLevel (id : Byte) (rest : List Byte) (s : State) : Host.Outcome State Fault Refusal :=
  .next (s.hostArrive ⟨0x16, id, 0 :: rest⟩)

/-- TEST_OUTPUT_PULSE: TEST_OUTPUT of form 1 (R129). -/
def execTestOutputPulse (id : Byte) (rest : List Byte) (s : State) : Host.Outcome State Fault Refusal :=
  .next (s.hostArrive ⟨0x16, id, 1 :: rest⟩)

/-- TEST_OUTPUT_TARGET: TEST_OUTPUT of form 2 (R129). -/
def execTestOutputTarget (id : Byte) (rest : List Byte) (s : State) : Host.Outcome State Fault Refusal :=
  .next (s.hostArrive ⟨0x16, id, 2 :: rest⟩)

/-- CLOSE_POCKET (R146). -/
def execClosePocket (id : Byte) (payload : List Byte) (s : State) : Host.Outcome State Fault Refusal :=
  .next (s.hostArrive ⟨0x18, id, payload⟩)

/-- HOLD_POCKET (R147). -/
def execHoldPocket (id : Byte) (payload : List Byte) (s : State) : Host.Outcome State Fault Refusal :=
  .next (s.hostArrive ⟨0x19, id, payload⟩)

/-- RELEASE_POCKET (R148). -/
def execReleasePocket (id : Byte) (payload : List Byte) (s : State) : Host.Outcome State Fault Refusal :=
  .next (s.hostArrive ⟨0x1A, id, payload⟩)

/-- CLEAR_POCKET (R150). -/
def execClearPocket (id : Byte) (payload : List Byte) (s : State) : Host.Outcome State Fault Refusal :=
  .next (s.hostArrive ⟨0x1B, id, payload⟩)

/-- PAUSE_LABELS (R167). -/
def execPauseLabels (id : Byte) (payload : List Byte) (s : State) : Host.Outcome State Fault Refusal :=
  .next (s.hostArrive ⟨0x20, id, payload⟩)

/-- RESUME_LABELS (R167). -/
def execResumeLabels (id : Byte) (payload : List Byte) (s : State) : Host.Outcome State Fault Refusal :=
  .next (s.hostArrive ⟨0x21, id, payload⟩)

/-- SKIP_LABEL (R168). -/
def execSkipLabel (id : Byte) (payload : List Byte) (s : State) : Host.Outcome State Fault Refusal :=
  .next (s.hostArrive ⟨0x22, id, payload⟩)

/-- REPRINT_LABEL (R169). -/
def execReprintLabel (id : Byte) (payload : List Byte) (s : State) : Host.Outcome State Fault Refusal :=
  .next (s.hostArrive ⟨0x23, id, payload⟩)

/-- GET_STATE (R197). -/
def execGetState (id : Byte) (payload : List Byte) (s : State) : Host.Outcome State Fault Refusal :=
  .next (s.hostArrive ⟨0x30, id, payload⟩)

/-- GET_STRIP (R21). -/
def execGetStrip (id : Byte) (payload : List Byte) (s : State) : Host.Outcome State Fault Refusal :=
  .next (s.hostArrive ⟨0x31, id, payload⟩)

/-- GET_POCKET (R152). -/
def execGetPocket (id : Byte) (payload : List Byte) (s : State) : Host.Outcome State Fault Refusal :=
  .next (s.hostArrive ⟨0x32, id, payload⟩)

/-- GET_LABELS (R171). -/
def execGetLabels (id : Byte) (payload : List Byte) (s : State) : Host.Outcome State Fault Refusal :=
  .next (s.hostArrive ⟨0x33, id, payload⟩)

/-- GET_COUNTS (R198). -/
def execGetCounts (id : Byte) (payload : List Byte) (s : State) : Host.Outcome State Fault Refusal :=
  .next (s.hostArrive ⟨0x34, id, payload⟩)

/-- CLEAR_COUNTS (R198). -/
def execClearCounts (id : Byte) (payload : List Byte) (s : State) : Host.Outcome State Fault Refusal :=
  .next (s.hostArrive ⟨0x35, id, payload⟩)

/-- GET_LIST (R20). -/
def execGetList (id : Byte) (payload : List Byte) (s : State) : Host.Outcome State Fault Refusal :=
  .next (s.hostArrive ⟨0x36, id, payload⟩)

end Sys2Proof.Machine
end

