-- ==== Sys2Proof/Machine/ResetCommands.lean ====
section
/-! DEFINITION. The meanings of the two resets. -/

namespace Sys2Proof.Machine

/-- POWER_ON_RESET, which ends with the levels found on the input pins (00 section 5, R19, R200). -/
def execPowerOnReset (found : InputPins) (s : State) : Host.Outcome State Fault Refusal := .next (s.powerOn found)

/-- SOFT_RESET (R199). -/
def execSoftReset (s : State) : Host.Outcome State Fault Refusal := .next s.softReset

end Sys2Proof.Machine
end

