-- ==== Sys2Proof/Machine/SolveCommands.lean ====
section
/-! DEFINITION. The meaning of the end of a solve (R87, R88). -/

namespace Sys2Proof.Machine

/-- The solution stored for a selection (R87, R89). -/
def Valued.solution (v : Valued) (slack : Nat) : Solution := ⟨v.t1, v.t2, v.len, v.grade, v.value, v.bonus, slack⟩

namespace State

/-- The solution is stored and the record is SOLVED (R87, step 1). -/
def storeSolution (i : Fin 64) (v : Valued) (s : State) : State :=
  (s.writeRecord i (fun r => { r with solution := some (v.solution (s.slack i)), solve := .solved })).modCounters
    (fun c => { c with solved := c.solved + 1 })

/-- A graded piece asks for a place; without one it goes to the overflow bin (R87, R134, R136). -/
def askPlace (i : Fin 64) (g : Fin 8) (len : Nat) (s : State) : State :=
  match s.placeAtCompletion g len with
  | some (p, r) => s.reserve i p r len
  | none => s.writeDisposition i (s.overflowBin .noFit)

/-- The outcome by the grade and the disposition at completion (R87, step 2). -/
def solveOutcome (i : Fin 64) (v : Valued) (s : State) : State :=
  match v.grade with
  | none => s.writeDisposition i (.runoff .noGrade)
  | some g => if (s.record i).disp = .undecided then s.askPlace i g v.len else s

/-- A solve without a candidate: the record is NONE again, and RUNOFF for no grade (R88). -/
def noCandidate (i : Fin 64) (s : State) : State :=
  (s.writeRecord i (fun r => { r with solve := .none })).writeDisposition i (.runoff .noGrade)

/-- The solver is IDLE and takes the next head (R77, R87, step 3). -/
def solverIdle (s : State) : State := (s.modSolver (fun v => { v with flight := none })).solverNext

/-- The selection of the solve in flight on a record (R81 to R86). -/
def selection (s : State) (f : Flight) : Option Valued :=
  let r := s.record f.index
  select (s.table r.bank) f.snap r.len r.defects

/-- The solve in flight completes (R87, R88). -/
def solveComplete (s : State) : State :=
  match s.solver.flight with
  | none => s
  | some f =>
    match s.selection f with
    | none => (s.noCandidate f.index).solverIdle
    | some v => ((s.storeSolution f.index v).solveOutcome f.index v).solverIdle

end State

/-- SOLVE_COMPLETE (R87, R88). -/
def execSolveComplete (s : State) : Host.Outcome State Fault Refusal := .next s.solveComplete

end Sys2Proof.Machine
end

