-- ==== Sys2Proof/Machine/TimerCommands.lean ====
section
/-! DEFINITION. The meanings of the output timers' expiries. A timer that does not run has no expiry: the state
stays (log 1). The clock comes to the expiry (log 6). -/

namespace Sys2Proof.Machine

namespace State

/-- A running pulse width expires (R118). -/
def pulseEnds (l : Fin 24) (s : State) : State :=
  match (s.line l).state with
  | .pulsing t => (s.clockTo t).modLine l Line.turnOff
  | _ => s

/-- A pull-in that ends at a time expires while the line is on: a pulse no longer than the pull-in has ended by then, and
has stopped it (R120). -/
def outlastsPullIn (state : LineState) (pullInEnd : Nat) : Bool :=
  match state with
  | .off => false
  | .pulsing ends => decide (pullInEnd < ends)
  | .held => true

/-- A running pull-in expires: the first period begins on (R120). -/
def pullInEnds (l : Fin 24) (s : State) : State :=
  match (s.line l).phase with
  | some (.full t) =>
    if outlastsPullIn (s.line l).state t then
      let s' := s.clockTo t
      s'.modLine l (fun x => { x with phase := some (.chopped true (s'.clock + x.cfg.duty.onMs)) })
    else s
  | _ => s

/-- The chop's next stretch: on for the duty's part of 8 ms, off for the rest; at 100 % there is no off time
(R120). -/
def nextChop (d : Duty) (on : Bool) (clock : Nat) : DrivePhase :=
  if on = true ∧ d ≠ .full then .chopped false (clock + (8 - d.onMs)) else .chopped true (clock + d.onMs)

/-- A chopped line's on or off time runs out (R120). -/
def chopEnds (l : Fin 24) (s : State) : State :=
  match (s.line l).phase with
  | some (.chopped on t) =>
    let s' := s.clockTo t
    s'.modLine l (fun x => { x with phase := some (nextChop x.cfg.duty on s'.clock) })
  | _ => s

/-- A running dead time expires (R126). -/
def deadTimeEnds (p : Fin 6) (s : State) : State :=
  match s.pair p with
  | none => s
  | some q =>
    match q.timer with
    | some t => (s.clockTo t).setPair p (some q.expire)
    | none => s

/-- The saw recovery timer expires: the saw is READY (R107). -/
def sawReady (s : State) : State :=
  match s.out.saw with
  | some t => { s.clockTo t with out := { s.out with saw := none } }
  | none => s

end State

/-- PULSE_WIDTH_EXPIRY (R118). -/
def execPulseWidthExpiry (l : Fin 24) (s : State) : Host.Outcome State Fault Refusal := .next (s.pulseEnds l)

/-- PULL_IN_EXPIRY (R120). -/
def execPullInExpiry (l : Fin 24) (s : State) : Host.Outcome State Fault Refusal := .next (s.pullInEnds l)

/-- CHOP_PERIOD (R120). -/
def execChopPeriod (l : Fin 24) (s : State) : Host.Outcome State Fault Refusal := .next (s.chopEnds l)

/-- DEAD_TIME_EXPIRY (R126). -/
def execDeadTimeExpiry (p : Fin 6) (s : State) : Host.Outcome State Fault Refusal := .next (s.deadTimeEnds p)

/-- SAW_RECOVERY_EXPIRY (R107). -/
def execSawRecoveryExpiry (s : State) : Host.Outcome State Fault Refusal := .next s.sawReady

end Sys2Proof.Machine
end

