-- ==== Sys2Proof/Machine/Dispatch.lean ====
section
/-! DEFINITION. The meaning of every command: one arm for each constructor of `Instr`. -/

namespace Sys2Proof.Machine

def exec (i : Instr) (s : State) : Host.Outcome State Fault Refusal :=
  match i with
  | .powerOnReset found => Sys2Proof.Machine.execPowerOnReset found s
  | .softReset => Sys2Proof.Machine.execSoftReset s
  | .rawCount sec phase => Sys2Proof.Machine.execRawCount sec phase s
  | .eyeInputChange sec blocked => Sys2Proof.Machine.execEyeInputChange sec blocked s
  | .scanStartSent => Sys2Proof.Machine.execScanStartSent s
  | .scanFrameReceived kind id payload => Sys2Proof.Machine.execScanFrameReceived kind id payload s
  | .defects => Sys2Proof.Machine.execDefects s
  | .scanEnd => Sys2Proof.Machine.execScanEnd s
  | .profile => Sys2Proof.Machine.execProfile s
  | .solveComplete => Sys2Proof.Machine.execSolveComplete s
  | .pulseWidthExpiry line => Sys2Proof.Machine.execPulseWidthExpiry line s
  | .pullInExpiry line => Sys2Proof.Machine.execPullInExpiry line s
  | .chopPeriod line => Sys2Proof.Machine.execChopPeriod line s
  | .deadTimeExpiry pair => Sys2Proof.Machine.execDeadTimeExpiry pair s
  | .sawRecoveryExpiry => Sys2Proof.Machine.execSawRecoveryExpiry s
  | .clearEdge pocket event => Sys2Proof.Machine.execClearEdge pocket event s
  | .paceInterval => Sys2Proof.Machine.execPaceInterval s
  | .labelTransmissionComplete => Sys2Proof.Machine.execLabelTransmissionComplete s
  | .ack serial => Sys2Proof.Machine.execAck serial s
  | .nak serial code => Sys2Proof.Machine.execNak serial code s
  | .ackTimeout => Sys2Proof.Machine.execAckTimeout s
  | .readyChange asserted => Sys2Proof.Machine.execReadyChange asserted s
  | .stopChange asserted => Sys2Proof.Machine.execStopChange asserted s
  | .frameError link bytes => Sys2Proof.Machine.execFrameError link bytes s
  | .linkGapTimeout burst => Sys2Proof.Machine.execLinkGapTimeout burst s
  | .hostFrameReceived kind id payload => Sys2Proof.Machine.execHostFrameReceived kind id payload s
  | .replySent => Sys2Proof.Machine.execReplySent s
  | .reportSent => Sys2Proof.Machine.execReportSent s
  | .unknownKind kind id payload => Sys2Proof.Machine.execUnknownKind kind id payload s
  | .identify id payload => Sys2Proof.Machine.execIdentify id payload s
  | .setSection id payload => Sys2Proof.Machine.execSetSection id payload s
  | .setOutput id payload => Sys2Proof.Machine.execSetOutput id payload s
  | .armPair id payload => Sys2Proof.Machine.execArmPair id payload s
  | .setTrim id payload => Sys2Proof.Machine.execSetTrim id payload s
  | .setGrade id payload => Sys2Proof.Machine.execSetGrade id payload s
  | .setRules id payload => Sys2Proof.Machine.execSetRules id payload s
  | .setPrices id payload => Sys2Proof.Machine.execSetPrices id payload s
  | .commitBank id payload => Sys2Proof.Machine.execCommitBank id payload s
  | .setProfile id payload => Sys2Proof.Machine.execSetProfile id payload s
  | .clearTrend id payload => Sys2Proof.Machine.execClearTrend id payload s
  | .setPocket id payload => Sys2Proof.Machine.execSetPocket id payload s
  | .setLine id payload => Sys2Proof.Machine.execSetLine id payload s
  | .setLabel id payload => Sys2Proof.Machine.execSetLabel id payload s
  | .setReports id payload => Sys2Proof.Machine.execSetReports id payload s
  | .startLine id payload => Sys2Proof.Machine.execStartLine id payload s
  | .stopLine id payload => Sys2Proof.Machine.execStopLine id payload s
  | .haltLine id payload => Sys2Proof.Machine.execHaltLine id payload s
  | .clearHalt id payload => Sys2Proof.Machine.execClearHalt id payload s
  | .feedHold id payload => Sys2Proof.Machine.execFeedHold id payload s
  | .reset id payload => Sys2Proof.Machine.execReset id payload s
  | .testOutputLevel id rest => Sys2Proof.Machine.execTestOutputLevel id rest s
  | .testOutputPulse id rest => Sys2Proof.Machine.execTestOutputPulse id rest s
  | .testOutputTarget id rest => Sys2Proof.Machine.execTestOutputTarget id rest s
  | .closePocket id payload => Sys2Proof.Machine.execClosePocket id payload s
  | .holdPocket id payload => Sys2Proof.Machine.execHoldPocket id payload s
  | .releasePocket id payload => Sys2Proof.Machine.execReleasePocket id payload s
  | .clearPocket id payload => Sys2Proof.Machine.execClearPocket id payload s
  | .pauseLabels id payload => Sys2Proof.Machine.execPauseLabels id payload s
  | .resumeLabels id payload => Sys2Proof.Machine.execResumeLabels id payload s
  | .skipLabel id payload => Sys2Proof.Machine.execSkipLabel id payload s
  | .reprintLabel id payload => Sys2Proof.Machine.execReprintLabel id payload s
  | .getState id payload => Sys2Proof.Machine.execGetState id payload s
  | .getStrip id payload => Sys2Proof.Machine.execGetStrip id payload s
  | .getPocket id payload => Sys2Proof.Machine.execGetPocket id payload s
  | .getLabels id payload => Sys2Proof.Machine.execGetLabels id payload s
  | .getCounts id payload => Sys2Proof.Machine.execGetCounts id payload s
  | .clearCounts id payload => Sys2Proof.Machine.execClearCounts id payload s
  | .getList id payload => Sys2Proof.Machine.execGetList id payload s
  | .bothPhasesChange sec => Sys2Proof.Machine.execBothPhasesChange sec s
  | .malformedScanFrame => Sys2Proof.Machine.execMalformedScanFrame s
  | .printerMalformedFrame kind id payload => Sys2Proof.Machine.execPrinterMalformedFrame kind id payload s

end Sys2Proof.Machine
end

