-- ==== Sys2Proof/Safety.lean ====
section
/-! DEFINITION. What the model promises of every state a run can reach: the bounds of the queues, the guard of
the protected pairs, the partition of the records into their lists, and the range of the trends. And the words in which
the statements are written: what the arrival of a request and its reply do to the host link, what HALT leaves, what a
suspect mark and a hand-back take away, how a head is judged, and what an unscanned strip becomes. -/

namespace Sys2Proof.Machine

open Sys2Proof.Config

/-- The queues are within what the part holds (R31, R51, R53, R158, R189, R193). -/
structure State.Bounded (s : State) : Prop where
  reports   : s.reports.queue.length ≤ nReports
  requests  : s.host.requests.length ≤ nRequests
  starts    : s.scan.starts.length ≤ nScanStarts
  intake    : s.scan.queue.length ≤ nIntake
  labels    : s.labels.queue.length ≤ nLabels
  schedules : ∀ x : Sec, (s.sec x).schedule.length ≤ nSchedule

/-- An armed pair shows its safe state or an active combination; with its dead time running it shows the safe
state, and otherwise no target is pending; a pending target is an active combination (R123, R124). -/
structure Pair.Guarded (q : Pair) : Prop where
  shown  : q.shown ≠ q.safe.complement
  rests  : q.timer.isSome = true → q.shown = q.safe
  idle   : q.timer = none → q.target = none
  target : ∀ c, q.target = some c → c ≠ q.safe ∧ c ≠ q.safe.complement

/-- Every armed pair is guarded (R124). -/
def State.PairsGuarded (s : State) : Prop := ∀ (p : Fin 6) (q : Pair), s.pair p = some q → q.Guarded

/-- Every record stands in exactly one list, once, its location names that list, and the records of FREE are blank
(R1, R2, R11). -/
structure Pool.Partitioned (p : Pool) : Prop where
  freeNodup : p.free.Nodup
  secNodup  : ∀ x : Sec, p.onSec[x.idx].Nodup
  free      : ∀ i : Fin 64, i ∈ p.free ↔ p.records[i].loc = .free
  onSec     : ∀ (x : Sec) (i : Fin 64), i ∈ p.onSec[x.idx] ↔ p.records[i].loc = locOf x
  blank     : ∀ i : Fin 64, p.records[i].loc = .free → p.records[i] = {}

/-- The trends are within their range, and so are the settings that they are updated with: the divisor and the nominals
(R91, R95). -/
structure State.TrendsInRange (s : State) : Prop where
  shift   : 1 ≤ s.check.shift ∧ s.check.shift ≤ 8
  nominal : ∀ j : Fin 4, s.check.dims[j].nominal ≤ 20000
  trends  : ∀ j : Fin 4, s.check.trends[j].natAbs ≤ 320000

/-- A request's frame arrived whole and holds the request queue alone (R187, R189). -/
def State.arrived (f : Frame) (s : State) : State :=
  { s with host := { s.host with rxHost := .hunting, requests := [f] } }

/-- The reply to a request composed: it starts at once on an idle transmitter, and otherwise waits; its kind is the
request's plus 0x80, its id the request's (R190, R191). -/
def State.replied (f : Frame) (payload : List Byte) (s : State) : State :=
  match s.host.tx with
  | .idle => { s with host := { s.host with tx := .reply ⟨f.kind + 0x80, f.id, payload⟩, waiting := none } }
  | _ => { s with host := { s.host with waiting := some ⟨f.kind + 0x80, f.id, payload⟩ } }

/-- The state after a request that arrived at an empty queue, was acted on by `act`, and was replied to. -/
def State.taken (kind id : Byte) (p : List Byte) (act : State → State) (reply : List Byte) (s : State) : State :=
  (act (s.arrived ⟨kind, id, p⟩)).replied ⟨kind, id, p⟩ reply

/-- What HALT leaves behind (R178, R179): every record in FREE, and nothing of a live record in the solver, so that a
solver that held live records only is IDLE with an empty queue; every schedule, the cut set and the run-off watch empty;
the last retracts none; a pending bank commit taken; the pairs at rest, the lines off but the feed-hold line; and the RUN
report offered last, with the number of records released. -/
def State.HaltedFrom (s t : State) (reason : HaltReason) (cause : RunCause) : Prop :=
  t.run.state = .halt ∧ t.run.halt = reason ∧ t.run.reasons.notRunning = true
  ∧ (∀ y : Sec, t.list y = []) ∧ t.pool.free.length = 64
  ∧ (∀ y : Sec, (t.sec y).schedule = [] ∧ (t.sec y).awaiting = none)
  ∧ t.cuts.cutSet = [] ∧ t.cuts.watch = [] ∧ t.cuts.lastTongue = none ∧ t.cuts.lastGroove = none
  ∧ t.gauge = .idle ∧ t.scan.starts = s.scan.starts.take 1
  ∧ t.solver.queue = s.solver.queue.filter (fun i => !s.live i)
  ∧ t.solver.flight = s.solver.flight.filter (fun f => !s.live f.index)
  ∧ ((∀ i, s.inFlight i = true ∨ i ∈ s.solver.queue → s.live i = true) →
    t.solver.flight = none ∧ t.solver.queue = [])
  ∧ t.solver.commitPending = false
  ∧ t.solver.active = (if s.solver.commitPending then s.solver.active.other else s.solver.active)
  ∧ (∀ p : Fin 6, t.pair p = (s.pair p).map (fun q => { q with shown := q.safe, timer := none, target := none }))
  ∧ (∀ l : Fin 24, s.run.settings.feedLine ≠ some l → (t.line l).state = .off)
  ∧ (s.reports.mask.getLsbD 7 = true
    ∨ (t.reports.queue.getLast?).map QueuedReport.body = some (.run s.run.state .halt cause s.liveList.length)
    ∨ (48 ≤ t.reports.queue.length ∧ 0 < t.reports.lost))

/-- The schedule of S3 when a record's end-head entries are withdrawn (R40, R109): for a head whose advance is still
pending, the record's advance and retract are gone; a head already advanced keeps its retract. -/
def State.withdrawn (s : State) (i : Fin 64) : List Entry :=
  let l := (s.sec .s3).schedule
  let pending (p : Fin 6) : Bool := l.any (fun e => decide (e.index = i ∧ e.action = .pairTarget p ⟨true, false⟩))
  let gone (head : Option (Fin 6)) (e : Entry) : Bool := match head with
    | none => false
    | some p => pending p && decide (e.action = .pairTarget p ⟨true, false⟩ ∨ e.action = .pairTarget p ⟨false, true⟩)
  l.filter (fun e => !(decide (e.index = i) && (gone s.cuts.tonguePair e || gone s.cuts.groovePair e)))

/-- A placement taken out of its bundle row (R138): its amount leaves the row's reserved fill, and the reservation count
falls by one. -/
def State.withoutPlacement (s : State) (pl : Placement) : State :=
  s.modPocket pl.pocket (fun k => { k with bundle := k.bundle.map (fun b => { b with
    reserved := b.reserved.set pl.row (b.reserved[pl.row] - pl.amount)
    reservations := b.reservations - 1 }) })

/-- A head judged by a frame of it (R58, R59): a bad frame adds 4 to its counter, at most to 63, and a good one takes 1
away, at least to 0; NORMAL at 40 or more it becomes DEGRADED, and DEGRADED at 8 or less NORMAL, each with a LINK
report. -/
def State.judged (h : Head) (bad : Bool) (s : State) : State :=
  let u := s.head h
  let n := if bad then min 63 (u.errors + 4) else u.errors - 1
  if u.degraded = false ∧ 40 ≤ n then (s.setHead h { errors := n, degraded := true }).offer (.link h true n)
  else if u.degraded = true ∧ n ≤ 8 then (s.setHead h { errors := n, degraded := false }).offer (.link h false n)
  else s.setHead h { errors := n, degraded := u.degraded }

/-- The placement of a record, if it has one, taken out of its bundle row, with the closing test (R138, R144). -/
def State.handedBack (r : Record) (s : State) : State :=
  match r.placement with
  | some pl => (s.withoutPlacement pl).closingTest pl.pocket
  | none => s

/-- A strip is unscanned, and its record otherwise as given (R6, R7, R62): one for the run-off stays so; any other is for the
regrade bin as unscanned, a placement handed back with the closing test, and counted unless it was unscanned already. -/
def State.unscannedAs (i : Fin 64) (r : Record) (s : State) : State :=
  let binned : Record := { r with
    disp := .bin s.run.settings.regrade .unscanned
    placement := none }
  match r.disp with
  | .runoff _ => s.setRecord i r
  | .bin _ .unscanned => (s.handedBack r).setRecord i binned
  | _ => { s.handedBack r with run := { s.run with counters := { s.run.counters with
      unscanned := s.run.counters.unscanned + 1 } } }.setRecord i binned

/-- The payload of a SET_SECTION that is taken (R30, R103, R104, 12.6): its bytes by offset. -/
structure SectionPayload (p : List Byte) : Prop where
  length   : p.length = 36
  section_ : 1 ≤ u8 p 0 ∧ u8 p 0 ≤ 4
  sense    : u8 p 1 ≤ 1
  scale    : 10 ≤ u16 p 3 ∧ u16 p 3 ≤ 5000
  distance : 100 ≤ u16 p 8 ∧ u16 p 8 ≤ 20000
  commit   : u8 p 0 = 2 → u16 p 12 + clamp 5 200 (u16 p 10) + 1 ≤ u16 p 8
  sort     : u8 p 0 = 4 → u16 p 14 + 1 ≤ u16 p 8
  saw      : u8 p 0 = 2 → 1 ≤ u16 p 16 ∧ u16 p 16 ≤ 20000 ∧ (u8 p 18 ≤ 23 ∨ u8 p 18 = 255)
  pairs    : u8 p 0 = 3 → (u8 p 21 ≤ 5 ∨ u8 p 21 = 255) ∧ (u8 p 22 ≤ 5 ∨ u8 p 22 = 255)
    ∧ (u8 p 21 = u8 p 22 → u8 p 21 = 255)
  heads    : u8 p 0 = 3 → u16 p 23 ≤ 20000 ∧ u16 p 25 ≤ 20000 ∧ u16 p 27 ≤ 1000 ∧ u16 p 29 ≤ 1000 ∧ u16 p 31 ≤ 1000
    ∧ u16 p 33 ≤ 1000 ∧ u16 p 27 ≤ u16 p 23 ∧ u16 p 31 ≤ u16 p 25

/-- The payload of a SET_POCKET that is taken (R132, 12.4): its bytes by offset. -/
structure PocketPayload (p : List Byte) : Prop where
  length    : p.length = 21
  flags     : u8 p 1 ≤ 1 ∧ u8 p 2 ≤ 1
  grade     : u8 p 3 ≤ 7
  kicker    : u8 p 4 ≤ 23 ∨ (u8 p 4 = 255 ∧ u8 p 1 = 0)
  position  : u16 p 5 ≤ 20000 ∧ u16 p 7 ≤ 3000
  alternate : (u8 p 9 ≤ 11 ∨ u8 p 9 = 255) ∧ u8 p 9 ≠ u8 p 0
  rows      : 1 ≤ u8 p 10 ∧ u8 p 10 ≤ 12 ∧ 300 ≤ u16 p 11 ∧ u16 p 11 ≤ 2500
  limits    : 1 ≤ u8 p 16 ∧ u8 p 16 ≤ 200 ∧ 1 ≤ u16 p 19 ∧ u16 p 19 ≤ 500

/-- A step answers a next state: no rule of the manual stops the part. -/
def State.Goes (s : State) : Prop := ∃ t, step s = .next t

end Sys2Proof.Machine
end

