-- ==== Sys2Proof/WellFormed.lean ====
section
/-! DEFINITION. The commands that can come about: what a frame can carry (R186, R187), and what the rows for failed,
malformed and unassigned frames are for (12.2, 12.5). -/

namespace Sys2Proof

open Sys2Proof.Config

/-- A payload fits a frame (R186). -/
def payloadOk (p : List Byte) : Bool := decide (p.length ≤ maxPayload)

/-- The assigned request kinds (12.2). -/
def assignedKinds : List Byte :=
  [0x01, 0x02, 0x03, 0x04, 0x05, 0x06, 0x07, 0x08, 0x09, 0x0A, 0x0B, 0x0C, 0x0D, 0x0E, 0x10, 0x11, 0x12, 0x13]
  ++ [0x14, 0x15, 0x16, 0x18, 0x19, 0x1A, 0x1B, 0x20, 0x21, 0x22, 0x23, 0x28, 0x30, 0x31, 0x32, 0x33, 0x34, 0x35, 0x36]

/-- A kind of 0x01 to 0x3F that names no request (R190). -/
def unassigned (k : Byte) : Bool := decide (1 ≤ k.toNat) && decide (k.toNat ≤ 0x3F) && decide (k ∉ assignedKinds)

/-- The length that the printer's frame of a kind has (12.5). -/
def printerLength (kind : Byte) : Option Nat :=
  if kind = 0x11 then some 4 else if kind = 0x12 then some 5 else none

/-- A command that can come about. -/
def Instr.wellFormed : Instr → Bool
  | .scanFrameReceived _ _ p => payloadOk p
  | .frameError _ bytes => !bytes.isEmpty
  | .hostFrameReceived _ _ p => payloadOk p
  | .unknownKind k _ p => unassigned k && payloadOk p
  | .identify _ p => payloadOk p
  | .setSection _ p => payloadOk p
  | .setOutput _ p => payloadOk p
  | .armPair _ p => payloadOk p
  | .setTrim _ p => payloadOk p
  | .setGrade _ p => payloadOk p
  | .setRules _ p => payloadOk p
  | .setPrices _ p => payloadOk p
  | .commitBank _ p => payloadOk p
  | .setProfile _ p => payloadOk p
  | .clearTrend _ p => payloadOk p
  | .setPocket _ p => payloadOk p
  | .setLine _ p => payloadOk p
  | .setLabel _ p => payloadOk p
  | .setReports _ p => payloadOk p
  | .startLine _ p => payloadOk p
  | .stopLine _ p => payloadOk p
  | .haltLine _ p => payloadOk p
  | .clearHalt _ p => payloadOk p
  | .feedHold _ p => payloadOk p
  | .reset _ p => payloadOk p
  | .testOutputLevel _ r => decide (r.length < maxPayload)
  | .testOutputPulse _ r => decide (r.length < maxPayload)
  | .testOutputTarget _ r => decide (r.length < maxPayload)
  | .closePocket _ p => payloadOk p
  | .holdPocket _ p => payloadOk p
  | .releasePocket _ p => payloadOk p
  | .clearPocket _ p => payloadOk p
  | .pauseLabels _ p => payloadOk p
  | .resumeLabels _ p => payloadOk p
  | .skipLabel _ p => payloadOk p
  | .reprintLabel _ p => payloadOk p
  | .getState _ p => payloadOk p
  | .getStrip _ p => payloadOk p
  | .getPocket _ p => payloadOk p
  | .getLabels _ p => payloadOk p
  | .getCounts _ p => payloadOk p
  | .clearCounts _ p => payloadOk p
  | .getList _ p => payloadOk p
  | .printerMalformedFrame k _ p => payloadOk p && decide (printerLength k ≠ some p.length)
  | .powerOnReset _ => true
  | .softReset => true
  | .rawCount _ _ => true
  | .eyeInputChange _ _ => true
  | .scanStartSent => true
  | .defects => true
  | .scanEnd => true
  | .profile => true
  | .solveComplete => true
  | .pulseWidthExpiry _ => true
  | .pullInExpiry _ => true
  | .chopPeriod _ => true
  | .deadTimeExpiry _ => true
  | .sawRecoveryExpiry => true
  | .clearEdge _ _ => true
  | .paceInterval => true
  | .labelTransmissionComplete => true
  | .ack _ => true
  | .nak _ _ => true
  | .ackTimeout => true
  | .readyChange _ => true
  | .stopChange _ => true
  | .linkGapTimeout _ => true
  | .replySent => true
  | .reportSent => true
  | .bothPhasesChange _ => true
  | .malformedScanFrame => true

/-- The payload of the frame that a command stands for, if it stands for a frame (R186). -/
def Instr.payload? : Instr → Option (List Byte)
  | .powerOnReset _ => none
  | .softReset => none
  | .rawCount _ _ => none
  | .eyeInputChange _ _ => none
  | .scanStartSent => none
  | .scanFrameReceived _ _ p => some p
  | .defects => none
  | .scanEnd => none
  | .profile => none
  | .solveComplete => none
  | .pulseWidthExpiry _ => none
  | .pullInExpiry _ => none
  | .chopPeriod _ => none
  | .deadTimeExpiry _ => none
  | .sawRecoveryExpiry => none
  | .clearEdge _ _ => none
  | .paceInterval => none
  | .labelTransmissionComplete => none
  | .ack _ => none
  | .nak _ _ => none
  | .ackTimeout => none
  | .readyChange _ => none
  | .stopChange _ => none
  | .frameError _ _ => none
  | .linkGapTimeout _ => none
  | .hostFrameReceived _ _ p => some p
  | .replySent => none
  | .reportSent => none
  | .unknownKind _ _ p => some p
  | .identify _ p => some p
  | .setSection _ p => some p
  | .setOutput _ p => some p
  | .armPair _ p => some p
  | .setTrim _ p => some p
  | .setGrade _ p => some p
  | .setRules _ p => some p
  | .setPrices _ p => some p
  | .commitBank _ p => some p
  | .setProfile _ p => some p
  | .clearTrend _ p => some p
  | .setPocket _ p => some p
  | .setLine _ p => some p
  | .setLabel _ p => some p
  | .setReports _ p => some p
  | .startLine _ p => some p
  | .stopLine _ p => some p
  | .haltLine _ p => some p
  | .clearHalt _ p => some p
  | .feedHold _ p => some p
  | .reset _ p => some p
  | .testOutputLevel _ rest => some (0 :: rest)
  | .testOutputPulse _ rest => some (1 :: rest)
  | .testOutputTarget _ rest => some (2 :: rest)
  | .closePocket _ p => some p
  | .holdPocket _ p => some p
  | .releasePocket _ p => some p
  | .clearPocket _ p => some p
  | .pauseLabels _ p => some p
  | .resumeLabels _ p => some p
  | .skipLabel _ p => some p
  | .reprintLabel _ p => some p
  | .getState _ p => some p
  | .getStrip _ p => some p
  | .getPocket _ p => some p
  | .getLabels _ p => some p
  | .getCounts _ p => some p
  | .clearCounts _ p => some p
  | .getList _ p => some p
  | .bothPhasesChange _ => none
  | .malformedScanFrame => none
  | .printerMalformedFrame _ _ p => some p

end Sys2Proof
end

