-- ==== Sys2Proof/Certificates/Slice0/Obligations.lean ====
section
/-! DEFINITION. The statements for the provers. -/

open Sys2Proof Sys2Proof.Machine Sys2Proof.Config

/-! ### The queue of commands and the invariants -/

/-- The command at the front of the queue runs on the queue's rest; with no command waiting a step is one millisecond
and nothing else (the model's choice, log 5). -/
def Obligations.StepRunsFrontCommand : Prop :=
  (∀ (c : Instr) (rest : List Instr) (s : State),
    step { s with pending := c :: rest } = exec c { s with pending := rest })
  ∧ ∀ s : State, s.pending = [] → step s = .next { s with clock := s.clock + 1 }

/-- Every command answers a next state, in every state, and leaves the queue of commands alone (log 37). -/
def Obligations.EveryCommandCompletes : Prop :=
  ∀ (c : Instr) (s : State), ∃ t, exec c s = .next t ∧ t.pending = s.pending

/-- Every step keeps the bounds of the queues. -/
def Obligations.StepKeepsBounds : Prop := ∀ s t : State, s.Bounded → step s = .next t → t.Bounded

/-- Every step keeps the guard of the protected pairs: none ever shows its forbidden combination. -/
def Obligations.StepKeepsPairsGuarded : Prop :=
  ∀ s t : State, s.PairsGuarded → step s = .next t → t.PairsGuarded

/-- Every step keeps each record in exactly one list, and the records of FREE blank. -/
def Obligations.StepKeepsPartition : Prop :=
  ∀ s t : State, s.pool.Partitioned → step s = .next t → t.pool.Partitioned

/-- The state after reset meets the three invariants. The pins after reset are log 8. -/
def Obligations.ResetMeetsInvariants : Prop :=
  State.reset.Bounded ∧ State.reset.PairsGuarded ∧ State.reset.pool.Partitioned

/-! ### Resets -/

/-- A power-on reset, with the levels found on the input pins (log 9). -/
def Obligations.PowerOnReset : Prop :=
  ∀ (found : InputPins) (s : State), exec (.powerOnReset found) s = .next
    { pins := found
      pool := { records := Vector.replicate 64 {}, free := List.finRange 64, onSec := Vector.replicate 4 [],
                tagCounter := 1 }
      secs := Vector.ofFn (fun i => { blocked := found.eyes[i] })
      cuts := {}
      gauge := .idle
      scan := {}
      solver := {}
      check := {}
      out := { lines := Vector.replicate 24 {}, pairs := Vector.replicate 6 none, saw := none }
      pockets := Vector.replicate 12 {}
      clears := Vector.ofFn (fun i => { level := found.clears[i] })
      labels := { serial := 1, state := if found.stop then .stopped else .idle }
      run := { state := .config, halt := .none, reasons := { notRunning := true }, settings := {} }
      reports := { queue := [], lost := 0, seq := 0, mask := 0 }
      host := { rate := found.rate }
      clock := s.clock
      choice := s.choice
      pending := s.pending }

/-- A soft reset keeps every setting, the counters of the sections and the bank choice, and clears the rest; the
feed-hold line is asked on again, with the reason not running. That the row takes effect in any state is log 3; what a
pocket marked content lost remembers is log 18; the mark of a STOP during a transmission is log 24; that a feed-hold line
of an armed pair takes no request is log 29; the clock is the model's (log 5). -/
def Obligations.SoftReset : Prop :=
  ∀ s : State, ∃ t, exec .softReset s = .next t
    ∧ t.pool = { records := Vector.replicate 64 {}, free := List.finRange 64, onSec := Vector.replicate 4 [],
                 tagCounter := 1 }
    ∧ (∀ x : Sec, t.sec x = { s.sec x with
        highMark := (s.sec x).counter
        blocked := s.pins.eyes[x.idx]
        pending := none
        edges := 0
        schedule := []
        awaiting := none })
    ∧ t.cuts = { s.cuts with lastTongue := none, lastGroove := none, cutSet := [], watch := [] }
    ∧ t.gauge = .idle
    ∧ t.scan = { starts := s.scan.starts.take 1 }
    ∧ t.solver = { bankA := s.solver.bankA, bankB := s.solver.bankB, active := s.solver.active }
    ∧ t.check = { enable := s.check.enable, hold := s.check.hold, shift := s.check.shift, dims := s.check.dims }
    ∧ (∀ p : Fin 6, t.pair p = (s.pair p).map (fun q => { q with shown := q.safe, timer := none, target := none }))
    ∧ (∀ l : Fin 24, (t.line l).cfg = (s.line l).cfg)
    ∧ (∀ l : Fin 24, s.run.settings.feedLine ≠ some l → (t.line l).state = .off ∧ (t.line l).phase = none)
    ∧ (∀ p : Fin 12, (t.pocket p).cfg = (s.pocket p).cfg ∧ (t.pocket p).bundle = none ∧ (t.pocket p).count = 0)
    ∧ (∀ p : Fin 12, ((t.pocket p).lost = true ↔ (s.pocket p).bundle.isSome = true
        ∨ ((s.pocket p).cfg.isBin = true ∧ 0 < (s.pocket p).count)
        ∨ ((s.pocket p).state = .stalled ∧ (s.pocket p).lost = true))
        ∧ (t.pocket p).state = if (t.pocket p).lost then .stalled
            else if (s.pocket p).state = .offline then .offline else .empty)
    ∧ (s.cuts.sawLine = none ∨ s.run.settings.feedLine ≠ s.cuts.sawLine → t.out.saw = none)
    ∧ (∀ l : Fin 24, s.run.settings.feedLine = some l → (s.pairOf l).isSome = true →
      (t.line l).state = .off ∧ (t.line l).phase = none ∧ t.out.saw = none)
    ∧ (∀ l : Fin 24, s.run.settings.feedLine = some l → s.pairOf l = none →
      let c := (s.line l).cfg
      (t.line l).state = (if c.pulse then .pulsing (s.clock + c.width) else .held)
      ∧ (t.line l).phase = (if c.holdDuty then some (.full (s.clock + c.pullIn)) else none)
      ∧ t.out.saw = (if c.pulse = true ∧ s.cuts.sawLine = some l then some (s.clock + s.cuts.sawRecovery) else none))
    ∧ (∀ p : Fin 12, t.clears[p] = { level := s.pins.clears[p], pending := none })
    ∧ t.labels = { s.labels with
        queue := []
        state := if s.pins.stop then .stopped else .idle
        current := none
        pausePending := false
        faultEntry := none
        prevSend := none
        permit := false
        ackTimer := none
        stopSeen := false
        linkErr := 0
        unmatched := 0 }
    ∧ t.run = { settings := s.run.settings }
    ∧ t.reports = { mask := s.reports.mask }
    ∧ t.host = { rate := s.host.rate }
    ∧ t.pins = s.pins ∧ t.clock = s.clock ∧ t.choice = s.choice ∧ t.pending = s.pending

/-! ### Encoders and eyes -/

/-- One raw count per change of one phase, in every run state: forward when A changes and the phases then differ or B
changes and they are then equal, the other way round with INVERTED sense (R22); one that the divider holds moves the
accumulator alone. A change of both phases at once is no raw count: the levels alone change. -/
def Obligations.RawCounts : Prop :=
  (∀ (s : State) (x : Sec) (phase : Phase) (forward : Bool),
    forward = ((match phase with
      | .a => (!s.pins.phaseA[x.idx]) != s.pins.phaseB[x.idx]
      | .b => s.pins.phaseA[x.idx] == (!s.pins.phaseB[x.idx])) != (s.sec x).cfg.inverted) →
    exec (.rawCount x phase) s = .next ((s.togglePhase x phase).rawStep x forward)
    ∧ (forward = true → (s.sec x).acc < (s.sec x).cfg.divider →
      exec (.rawCount x phase) s = .next ((s.togglePhase x phase).setSec x { s.sec x with acc := (s.sec x).acc + 1 }))
    ∧ (forward = false → 0 < (s.sec x).acc →
      exec (.rawCount x phase) s = .next ((s.togglePhase x phase).setSec x { s.sec x with acc := (s.sec x).acc - 1 })))
  ∧ (∀ (s : State) (x : Sec), exec (.bothPhasesChange x) s = .next { s with pins := { s.pins with
    phaseA := s.pins.phaseA.set x.idx (!s.pins.phaseA[x.idx])
    phaseB := s.pins.phaseB.set x.idx (!s.pins.phaseB[x.idx]) } })

/-- A forward raw count that steps up from n: the accumulator wraps to 0 and the counter advances; with no position
reached, that is all, but for the high mark; one position reached is acted on in the same event. A backward raw count that
steps down from 0: the accumulator wraps to n and the counter falls back; outside RUN and DRAIN the high mark follows, and
inside, travel within the reversal limit changes nothing else, and travel beyond it halts the line, with the section as
the reason; that the RUN report is the last report of the event is log 12. -/
def Obligations.CounterSteps : Prop :=
  (∀ (s : State) (x : Sec) (phase : Phase),
    (s.togglePhase x phase).countsForward x phase = true → (s.sec x).acc = (s.sec x).cfg.divider →
    let c := (s.sec x).counter + 1
    let t := (s.togglePhase x phase).setSec x { s.sec x with
      acc := 0
      counter := c
      highMark := if s.running = true ∧ 8388608 ≤ (c - (s.sec x).highMark).toNat then (s.sec x).highMark else c }
    (t.due (some x) = [] → exec (.rawCount x phase) s = .next t)
    ∧ (∀ d, t.due (some x) = [d] → (t.act d).due (some x) = [] → exec (.rawCount x phase) s = .next (t.act d)))
  ∧ ((∀ (s : State) (x : Sec) (phase : Phase),
    (s.togglePhase x phase).countsForward x phase = false → (s.sec x).acc = 0 →
    let c := (s.sec x).counter - 1
    (s.running = false → exec (.rawCount x phase) s = .next ((s.togglePhase x phase).setSec x
      { s.sec x with acc := (s.sec x).cfg.divider, counter := c, highMark := c }))
    ∧ (s.running = true → ((s.sec x).highMark - c).toNat ≤ (s.sec x).cfg.reversal →
      exec (.rawCount x phase) s = .next ((s.togglePhase x phase).setSec x
        { s.sec x with acc := (s.sec x).cfg.divider, counter := c })))
  ∧ (∀ (s : State) (x : Sec) (phase : Phase), s.pool.Partitioned → s.running = true →
    (s.togglePhase x phase).countsForward x phase = false → (s.sec x).acc = 0 →
    (s.sec x).cfg.reversal < ((s.sec x).highMark - ((s.sec x).counter - 1)).toNat →
    ∃ t, exec (.rawCount x phase) s = .next t ∧ s.HaltedFrom t (.reversal x) (.reversal x)
      ∧ (t.sec x).counter = (s.sec x).counter - 1))

/-- The raw input of an eye takes a level: the pending change is dropped when it returns, stands when one is pending,
and begins otherwise; with debounce 0 outside RUN and DRAIN the debounced state follows at once. -/
def Obligations.EyeInputChange : Prop :=
  ∀ (s : State) (x : Sec) (blocked : Bool),
    let u := { s with pins := { s.pins with eyes := s.pins.eyes.set x.idx blocked } }
    let v := s.sec x
    (blocked = v.blocked → exec (.eyeInputChange x blocked) s = .next (u.setSec x { v with pending := none }))
    ∧ (blocked ≠ v.blocked → v.pending.isSome = true → exec (.eyeInputChange x blocked) s = .next u)
    ∧ (blocked ≠ v.blocked → v.pending = none → 1 ≤ v.cfg.debounce → v.cfg.debounce ≤ 15 →
      exec (.eyeInputChange x blocked) s = .next (u.setSec x { v with pending := some ⟨blocked, v.counter⟩ }))
    ∧ (blocked ≠ v.blocked → v.pending = none → v.cfg.debounce = 0 → s.running = false →
      let t := u.setSec x { v with blocked := blocked, edges := if blocked then v.edges + 1 else v.edges }
      t.due none = [] → exec (.eyeInputChange x blocked) s = .next t)

/-- The conversions between millimetres and counts, half up, with the cases of R25. -/
def Obligations.LengthConversions : Prop :=
  (∀ (c : SectionCfg) (mm : Nat), 10 ≤ c.scale → c.scale ≤ 5000 →
    c.toCounts mm = (mm * 1000 + c.scale / 2) / c.scale
    ∧ 2 * c.scale * c.toCounts mm ≤ 2 * (mm * 1000) + c.scale
    ∧ 2 * (mm * 1000) + c.scale < 2 * c.scale * (c.toCounts mm + 1)
    ∧ (mm ≤ 24000 → c.toCounts mm ≤ 2400000 ∧ c.toCounts mm < 8388608))
  ∧ (∀ (c : SectionCfg) (counts : Nat), c.toMm counts = (counts * c.scale + 500) / 1000
    ∧ 2000 * c.toMm counts ≤ 2 * (counts * c.scale) + 1000
    ∧ 2 * (counts * c.scale) + 1000 < 2000 * (c.toMm counts + 1))
  ∧ ({ scale := 250 } : SectionCfg).toCounts 1000 = 4000
  ∧ ({ scale := 500 } : SectionCfg).toCounts 1950 = 3900
  ∧ ({ scale := 500 } : SectionCfg).toMm 3101 = 1551
  ∧ ({ scale := 10 } : SectionCfg).toCounts 24000 = 2400000

/-! ### The gauge, the handoffs, the commit points and the kick -/

/-- An edge at eye G: a lead edge starts a measurement, and a pending bank commit takes effect; a tail edge below 20 mm is
noise, below 150 mm an undersize strip; a strip of 150 mm or more takes the first record of FREE, joins S1 and the tallies
of its record are cleared, and it is announced to the scanning station; with the head of a face DEGRADED, or 8 frames held,
it is unscanned; with FREE empty it is untracked. -/
def Obligations.GaugeMeasures : Prop :=
  (∀ (s : State) (pos : Pos),
    let begun : State := { s with gauge := .measuring pos (addCounts pos ((s.sec .s1).cfg.toCounts 3000 + 1)) }
    (s.solver.commitPending = false → s.followEdge .s1 true pos = begun)
    ∧ (s.solver.commitPending = true → s.followEdge .s1 true pos = { begun with solver := { s.solver with
      active := s.solver.active.other
      commitPending := false } }))
  ∧ (∀ (s : State) (pos lead far : Pos), s.gauge = .measuring lead far → (pos - lead).toNat < 8388608 →
    let mm := (s.sec .s1).cfg.toMm (pos - lead).toNat
    let rested : State := { s with gauge := .idle }
    let counted (c : LineCounters) : State := { rested with run := { s.run with counters := c } }
    let gauged : LineCounters := { s.run.counters with gauged := s.run.counters.gauged + 1 }
    (mm < 20 → s.followEdge .s1 false pos = rested)
    ∧ (20 ≤ mm → s.pool.free = [] →
      s.followEdge .s1 false pos = counted { gauged with untracked := s.run.counters.untracked + 1 })
    ∧ (∀ i rest, s.pool.free = i :: rest → s.run.settings.threshold ≤ rest.length →
      let placed (r : Record) : Pool :=
        { records := s.pool.records.set i r
          free := rest
          onSec := s.pool.onSec.set 0 (s.pool.onSec[0] ++ [i])
          tagCounter := stepTag s.nextTag }
      let blank : Record := { tag := s.nextTag, loc := .s1, bank := s.solver.active, lead := lead }
      (20 ≤ mm → mm < 150 → s.followEdge .s1 false pos =
        { counted { gauged with undersize := s.run.counters.undersize + 1 } with
          pool := placed { blank with
            len := mm
            profile := .unchecked
            disp := .runoff .undersize }
          scan := { s.scan with tallies := s.scan.tallies.set i {} } })
      ∧ (150 ≤ mm →
        let full : Bool := decide (8 ≤ s.scan.starts.length)
        let spoilt := s.scan.top.degraded || s.scan.bottom.degraded || full
        s.followEdge .s1 false pos = { counted { gauged with
            unscanned := if spoilt then s.run.counters.unscanned + 1 else s.run.counters.unscanned } with
          pool := placed { blank with
            len := min 3000 mm
            top := if s.scan.top.degraded then .degraded else .awaiting
            bottom := if s.scan.bottom.degraded then .degraded else .awaiting
            profile := if s.check.enable ∧ s.scan.profile.degraded = false ∧ full = false then .awaiting else .unchecked
            disp := if spoilt then .bin s.run.settings.regrade .unscanned else .undecided }
          scan := { s.scan with
            tallies := s.scan.tallies.set i {}
            starts := if full then s.scan.starts else s.scan.starts ++ [⟨s.nextTag, min 3000 mm⟩] } })))

/-- A lead edge at eye T, M or K: with no record on the section before, or its head below the window, it is a stray;
within the window the head moves to the tail of the receiving section and takes the edge as its lead count, and at eye M
the end-match decision follows; a head above the window whose deadline is reached is lost, and the edge is tested against
the new head. That a head above the window whose deadline is not reached makes the edge a stray is the model's choice
(log 40). -/
def Obligations.HandoffEdges : Prop :=
  ∀ (s : State) (pos : Pos) (a b : Sec) (k : Fin 3), (a, b, k) ∈ [(Sec.s1, Sec.s2, 0), (.s2, .s3, 1), (.s3, .s4, 2)] →
    let c := (s.sec a).cfg
    let counters := { s.run.counters with stray := s.run.counters.stray.set k (s.run.counters.stray[k] + 1) }
    let strayed := ({ s with run := { s.run with counters := counters } }.offer (.stray b)).setSec b
      { s.sec b with awaiting := none }
    (s.list a = [] → s.followEdge b true pos = strayed)
    ∧ (∀ i rest, s.list a = i :: rest →
      let travel := ((s.sec a).counter - (s.record i).lead).toNat
      (travel < c.toCounts (c.distance - c.window) → s.followEdge b true pos = strayed)
      ∧ (c.toCounts (c.distance - c.window) ≤ travel → travel ≤ c.toCounts (c.distance + c.window) →
        s.live i = true →
        let moved := (((s.setList a rest).setList b (s.list b ++ [i])).setRecord i
          { s.record i with
            loc := locOf b
            lead := pos }).setSec b { s.sec b with awaiting := some ⟨i, (s.record i).tag, pos⟩ }
        s.followEdge b true pos = if b = .s3 then moved.endMatch i else moved)
      ∧ (c.toCounts (c.distance + c.window) < travel →
        let deadline := addCounts (s.record i).lead (c.toCounts (c.distance + c.window) + 1)
        (s.isReached a deadline = true → s.pool.Partitioned →
          s.followEdge b true pos = (s.lose i a).followEdge b true pos)
        ∧ (s.isReached a deadline = false → c.toCounts (c.distance - c.window) ≤ travel →
          s.followEdge b true pos = strayed)))

/-- The positions that wait to be acted on, each reached (R26): the pending change of the eye whose counter stepped, at its
debounce distance (R28); the overlength position (R48); the handoff deadline of the head of S1, S2 and S3 (R37), and of the
head of S4 before its tail edge at K (R44); the commit point of the oldest strip of S2 without the mark (R41) and the sort
commit point of the oldest of S4 (R42); the first reached entry of a schedule (R34) and of the run-off watch (R43). And
what acting on each does. -/
def Obligations.DuePositions : Prop :=
  (∀ (s : State) (stepped : Option Sec),
    let past (x : Sec) (i : Fin 64) (counts : Nat) : Prop :=
      s.isReached x (addCounts (s.record i).lead counts) = true
    (∀ x e, .eye x e ∈ s.due stepped ↔ stepped = some x ∧ (s.sec x).pending = some e
      ∧ s.isReached x (addCounts e.pos (s.sec x).cfg.debounce) = true)
    ∧ (∀ lead, .overlength lead ∈ s.due stepped ↔ ∃ far, s.gauge = .measuring lead far ∧ s.isReached .s1 far = true)
    ∧ (∀ x i, x ≠ .s4 → (.deadline x i ∈ s.due stepped ↔ (s.list x).head? = some i
      ∧ past x i ((s.sec x).cfg.toCounts ((s.sec x).cfg.distance + (s.sec x).cfg.window) + 1)))
    ∧ (∀ i, .deadline .s4 i ∈ s.due stepped ↔ (s.list .s4).head? = some i ∧ (∀ e ∈ s.cuts.watch, e.index ≠ i)
      ∧ past .s4 i ((s.sec .s4).cfg.toCounts ((if i ∈ s.cuts.cutSet then (s.record i).pieceLen else (s.record i).len)
        + (s.sec .s4).cfg.distance + (s.sec .s4).cfg.window) + 1))
    ∧ (∀ i, .commit i ∈ s.due stepped ↔ (s.list .s2).find? (fun j => !(s.record j).committed) = some i
      ∧ past .s2 i ((s.sec .s2).cfg.toCounts (s.sec .s2).cfg.commit))
    ∧ (∀ i, .sortCommit i ∈ s.due stepped ↔ (s.list .s4).find? (fun j => !(s.record j).sortCommitted) = some i
      ∧ past .s4 i ((s.sec .s4).cfg.toCounts (s.sec .s4).cfg.sort))
    ∧ (∀ x e, .fire x e ∈ s.due stepped ↔ (s.sec x).schedule.find? (fun a => s.isReached x a.due) = some e)
    ∧ (∀ i, .runOff i ∈ s.due stepped ↔
      ∃ e, s.cuts.watch.find? (fun a => s.isReached .s4 a.due) = some e ∧ e.index = i))
  ∧ (∀ s : State,
    (∀ x e, s.act (.eye x e) =
      let t := s.setSec x { s.sec x with
        blocked := e.blocked
        pending := none
        edges := if e.blocked then (s.sec x).edges + 1 else (s.sec x).edges }
      if s.running then t.followEdge x e.blocked e.pos else t)
    ∧ (∀ x i, s.act (.deadline x i) = s.lose i x) ∧ (∀ i, s.act (.commit i) = s.commitEvent i)
    ∧ (∀ i, s.act (.sortCommit i) = s.sortCommit i) ∧ (∀ x e, s.act (.fire x e) = s.fireEntry x e)
    ∧ (∀ i, (∀ why, (s.record i).disp ≠ .runoff why) → s.act (.runOff i) = s.lose i .s4)
    ∧ (∀ i why, (s.record i).disp = .runoff why →
      let t := (s.offer (.piece ((s.record i).info none))).release i
      s.act (.runOff i) = { t with run := { t.run with counters := { t.run.counters with
        runoff := t.run.counters.runoff + 1 } } }))
  ∧ (∀ (s : State) (lead : Pos),
    let counted (c : LineCounters) : State := { s with
      gauge := .overlong
      run := { s.run with counters := c } }
    let gauged : LineCounters := { s.run.counters with gauged := s.run.counters.gauged + 1 }
    (s.pool.free = [] →
      s.act (.overlength lead) = counted { gauged with untracked := s.run.counters.untracked + 1 })
    ∧ (∀ i rest, s.pool.free = i :: rest → s.run.settings.threshold ≤ rest.length →
      s.act (.overlength lead) =
        { counted { gauged with overlength := s.run.counters.overlength + 1 } with
          pool :=
            { records := s.pool.records.set i
                { tag := s.nextTag
                  loc := .s1
                  bank := s.solver.active
                  len := 3000
                  lead := lead
                  profile := .unchecked
                  disp := .runoff .overlength }
              free := rest
              onSec := s.pool.onSec.set 0 (s.pool.onSec[0] ++ [i])
              tagCounter := stepTag s.nextTag }
          scan := { s.scan with tallies := s.scan.tallies.set i {} } }))

/-- A tail edge at eye T, M or K (R38 to R40, R43): it measures the strip that the eye awaits, if that is still live with
its tag; at K the strip joins the run-off watch, once; a length within the tolerance of the expected one changes nothing
else; one beyond it marks the strip suspect: counted once, for the run-off unless it is already, its placement handed back,
its end-head entries withdrawn and its kick removed. -/
def Obligations.TailEdges : Prop :=
  ∀ (s : State) (x : Sec) (pos : Pos), x ≠ .s1 →
    ((s.sec x).awaiting = none → s.followEdge x false pos = s)
    ∧ (∀ a, (s.sec x).awaiting = some a →
      (s.live a.index = false ∨ (s.record a.index).tag ≠ a.tag → s.followEdge x false pos = s)
      ∧ (s.live a.index = true → (s.record a.index).tag = a.tag →
        let i := a.index
        let mm := min 65535 ((s.sec x).cfg.toMm (pos - a.pos).toNat)
        let r := { s.record i with eyeLength := some mm }
        let expected := if x ≠ .s2 ∧ i ∈ s.cuts.cutSet then r.pieceLen else r.len
        let leaves := addCounts pos ((s.sec .s4).cfg.toCounts (s.sec .s4).cfg.distance)
        let measured : State := { (s.setRecord i r).setSec x { s.sec x with awaiting := none } with
          cuts := if x = .s4 ∧ (∀ e ∈ s.cuts.watch, e.index ≠ i)
            then { s.cuts with watch := s.cuts.watch ++ [⟨i, leaves⟩] } else s.cuts }
        let tolerance := s.run.settings.tolerance
        (measured.record i = r ∧ (∀ j, j ≠ i → measured.record j = s.record j))
        ∧ (mm ≤ expected + tolerance → expected ≤ mm + tolerance → s.followEdge x false pos = measured)
        ∧ (expected + tolerance < mm ∨ mm + tolerance < expected → s.pool.Partitioned →
          let t := s.followEdge x false pos
          let falls : Bool := (match r.disp with
            | .runoff _ => false
            | _ => true)
          t.record i = { r with
            faults := { r.faults with suspect := true }
            disp := if falls then .runoff .suspect else r.disp
            placement := if falls then none else r.placement }
          ∧ (∀ j, j ≠ i → t.record j = s.record j)
          ∧ t.run = { s.run with counters := { s.run.counters with
              suspect := if r.faults.suspect then s.run.counters.suspect else s.run.counters.suspect + 1 } }
          ∧ (∀ y : Sec, t.sec y = { measured.sec y with schedule := match y with
              | .s3 => s.withdrawn i
              | .s4 => (s.sec .s4).schedule.filter (fun e => decide (e.index ≠ i))
              | _ => (s.sec y).schedule })
          ∧ t.cuts = measured.cuts ∧ t.out = s.out
          ∧ (falls = false ∨ r.placement = none → t.pockets = s.pockets ∧ t.labels = s.labels)
          ∧ (∀ pl, falls = true → r.placement = some pl →
            let u := (s.withoutPlacement pl).closingTest pl.pocket
            t.pockets = u.pockets ∧ t.labels = u.labels))))

/-- Release: the record leaves its section, the solve queue, every schedule, the cut set and the run-off watch, its
placement is handed back, it is made blank and joins the tail of FREE; a solve in flight on it is abandoned, and the solver
takes the next head; a blank record is not released. A record that is lost goes to the run-off as lost, is counted,
reported, and released; that the report of a lost record carries no row is log 33. -/
def Obligations.RecordsReleased : Prop :=
  ∀ (s : State) (i : Fin 64),
    (s.live i = false → s.release i = s)
    ∧ (s.live i = true →
      let t := s.release i
      let waiting := s.solver.queue.filter (fun j => decide (j ≠ i))
      t.record i = {} ∧ t.pool.free = s.pool.free ++ [i] ∧ t.pool.tagCounter = s.pool.tagCounter
      ∧ (∀ x : Sec, t.list x = (s.list x).filter (fun j => decide (j ≠ i)))
      ∧ (∀ x : Sec, (t.sec x).schedule = (s.sec x).schedule.filter (fun e => decide (e.index ≠ i)))
      ∧ t.cuts.cutSet = s.cuts.cutSet.filter (fun j => decide (j ≠ i))
      ∧ t.cuts.watch = s.cuts.watch.filter (fun e => decide (e.index ≠ i))
      ∧ ((s.record i).placement = none → t.pockets = s.pockets ∧ t.labels = s.labels)
      ∧ (∀ pl, (s.record i).placement = some pl →
        let u := (s.withoutPlacement pl).closingTest pl.pocket
        t.pockets = u.pockets ∧ t.labels = u.labels)
      ∧ (s.inFlight i = false →
        t.solver.flight = s.solver.flight ∧ t.solver.queue = waiting ∧ ∀ j, j ≠ i → t.record j = s.record j)
      ∧ (s.inFlight i = true → s.running = false ∨ waiting = [] →
        t.solver.flight = none ∧ t.solver.queue = waiting ∧ ∀ j, j ≠ i → t.record j = s.record j)
      ∧ (∀ k rest, s.inFlight i = true → s.running = true → waiting = k :: rest → s.live k = true →
        t.solver.flight = some ⟨k, s.snapshot⟩ ∧ t.solver.queue = rest
        ∧ t.record k = { s.record k with solve := .solving } ∧ ∀ j, j ≠ i → j ≠ k → t.record j = s.record j))
    ∧ (∀ x : Sec, s.live i = true →
      let r := s.record i
      let counters := { s.run.counters with lost := s.run.counters.lost.set x.idx (s.run.counters.lost[x.idx] + 1) }
      let written (u : State) : State := { u.setRecord i { r with
        disp := .runoff .lost
        placement := none } with run := { s.run with counters := counters } }
      let report : Report := .lost x ({ r with disp := .runoff .lost }.info none)
      (r.placement = none → s.lose i x = ((written s).offer report).release i)
      ∧ (∀ pl, r.placement = some pl →
        s.lose i x = ((written ((s.withoutPlacement pl).closingTest pl.pocket)).offer report).release i))

/-- The commit event: a record decided cut has its saw cuts scheduled and joins the cut set; a record whose solve has not
finished is MISSED and goes to the regrade bin; a record neither solved nor decided is unscanned. -/
def Obligations.CommitEvents : Prop :=
  ∀ (s : State) (i : Fin 64), s.live i = true → (s.record i).placement = none ∨ (s.record i).solve = .solved →
    let r := s.record i
    let marked := { r with committed := true }
    let c := (s.sec .s2).cfg
    (∀ v l p, r.solve = .solved → r.disp = .pocket p → r.solution = some v → s.cuts.sawLine = some l → v.t1 ≠ 0 →
      v.t2 ≠ 0 → (s.sec .s2).schedule.length ≤ 30 → (∀ e ∈ (s.sec .s2).schedule, e.index ≠ i) →
      let first : Entry := ⟨addCounts r.lead (c.toCounts (s.cuts.sawPos + v.t1)), .linePulse l, i, none⟩
      let second : Entry := ⟨addCounts r.lead (c.toCounts (s.cuts.sawPos + r.len - v.t2)), .linePulse l, i, none⟩
      let now := (s.sec .s2).counter
      s.isReached .s2 first.due = false → s.isReached .s2 second.due = false →
      s.commitEvent i = ({ s with cuts := { s.cuts with cutSet := s.cuts.cutSet ++ [i] } }.setRecord i marked).setSec .s2
        { s.sec .s2 with schedule := insertEntry now second (insertEntry now first (s.sec .s2).schedule) })
    ∧ (r.solve = .queued → r.disp = .undecided → s.inFlight i = false →
      s.commitEvent i = { s with
        solver := { s.solver with queue := s.solver.queue.filter (fun j => decide (j ≠ i)) }
        run := { s.run with counters := { s.run.counters with missed := s.run.counters.missed + 1 } } }.setRecord i
          { marked with
            solve := .missed
            disp := .bin s.run.settings.regrade .missed })
    ∧ (r.solve = .none → r.disp = .undecided →
      s.commitEvent i = { s with run := { s.run with counters := { s.run.counters with
        unscanned := s.run.counters.unscanned + 1 } } }.setRecord i
          { marked with disp := .bin s.run.settings.regrade .unscanned })

/-- A saw-cut entry fires (R108, R109): on a line of an armed pair it is reported and neither made nor missed; with the
saw READY the pulse is taken and the recovery timer starts, and nothing is written to the record; with the saw RECOVERING
the cut is missed: the lines and the timer stay, the record's fault set gains cut missed and is counted once, and before
its sort commit it goes to the regrade bin unless it is for the run-off, its placement handed back; its end-head entries
are withdrawn, its other cut and its place in the cut set stay. The clock is the model's (log 5); that a cut on a HELD saw
line starts the timer is log 20. -/
def Obligations.SawCuts : Prop :=
  ∀ (s : State) (e : Entry) (l : Fin 24), s.pool.Partitioned → s.live e.index = true → e.action = .linePulse l →
    let i := e.index
    let r := s.record i
    let fired : State := s.setSec .s2 { s.sec .s2 with schedule := (s.sec .s2).schedule.erase e }
    (∀ p, s.pairOf l = some p → s.fireEntry .s2 e = fired.offer (.lineInPair (.unit .s2) r.tag l p))
    ∧ (s.pairOf l = none → s.out.saw = none →
      let x := s.line l
      let struck : Line := if x.state = .held then x else { x with
        state := .pulsing (s.clock + x.cfg.width)
        phase := if x.state ≠ .off then x.phase
          else if x.cfg.holdDuty then some (.full (s.clock + x.cfg.pullIn)) else none }
      s.fireEntry .s2 e = { fired with out := { s.out with
        lines := s.out.lines.set l struck
        saw := some (s.clock + s.cuts.sawRecovery) } })
    ∧ (s.pairOf l = none → s.out.saw.isSome = true →
      let t := s.fireEntry .s2 e
      let falls : Bool := !r.sortCommitted && (match r.disp with
        | .runoff _ => false
        | _ => true)
      t.out = s.out ∧ t.cuts = s.cuts
      ∧ t.record i = { r with
        faults := { r.faults with cutMissed := true }
        disp := if falls then .bin s.run.settings.regrade .cutMissed else r.disp
        placement := if falls then none else r.placement }
      ∧ (∀ j, j ≠ i → t.record j = s.record j)
      ∧ t.run = { s.run with counters := { s.run.counters with
          cutMissed := if r.faults.cutMissed then s.run.counters.cutMissed else s.run.counters.cutMissed + 1 } }
      ∧ (∀ y : Sec, t.sec y = { s.sec y with schedule := match y with
          | .s2 => (s.sec .s2).schedule.erase e
          | .s3 => s.withdrawn i
          | _ => (s.sec y).schedule })
      ∧ (falls = false ∨ r.placement = none → t.pockets = s.pockets ∧ t.labels = s.labels)
      ∧ (∀ pl, falls = true → r.placement = some pl →
        let u := (s.withoutPlacement pl).closingTest pl.pocket
        t.pockets = u.pockets ∧ t.labels = u.labels))

/-- The end-match decision at the handoff to S3 (R111 to R114): a strip not for a pocket, or with no end head in use, is
not end-matched; with a head in conflict with its last retract, or with no room for all the entries, the end match is
skipped: counted, marked, for the regrade bin, its placement handed back, the last retracts as they were; otherwise the
advance and the retract of each head in use are scheduled, and the last retracts follow; a tongue advance that is reached at
once fires. A pair-target entry of S3 that fires, then or later, leaves the schedule and is a target request of S3 for its
pair with the record's tag (R34, R115). The order of entries of equal due position is the model's choice (log 42). -/
def Obligations.EndMatching : Prop :=
  ∀ (s : State) (i : Fin 64), s.pool.Partitioned → s.live i = true →
    let r := s.record i
    let c := s.cuts
    let S := s.sec .s3
    let at' (mm : Nat) : Pos := addCounts r.lead (S.cfg.toCounts mm)
    let inUse (head : Option (Fin 6)) : Option (Fin 6) := head.filter (fun p => (s.pair p).isSome)
    let entries (head : Option (Fin 6)) (advance retract : Nat) : List Entry := (match inUse head with
      | some p => [⟨at' advance, .pairTarget p ⟨true, false⟩, i, none⟩, ⟨at' retract, .pairTarget p ⟨false, true⟩, i, none⟩]
      | none => [])
    let tongue := entries c.tonguePair (c.hT - c.aT) (c.hT + c.rT)
    let groove := entries c.groovePair (c.hG - c.aG + r.pieceLen) (c.hG + c.rG + r.pieceLen)
    let conflict (head : Option (Fin 6)) (last : Option Pos) (advance : Nat) : Prop :=
      (inUse head).isSome = true ∧ last.any (fun q => decide (8388608 ≤ (at' advance - q).toNat
        ∨ (at' advance - q).toNat < S.cfg.toCounts c.clearance)) = true
    let conflicts := conflict c.tonguePair c.lastTongue (c.hT - c.aT)
      ∨ conflict c.groovePair c.lastGroove (c.hG - c.aG + r.pieceLen)
    let full := 32 < (tongue ++ groove).length + S.schedule.length
    let inserted := (tongue ++ groove).foldl (fun l e => insertEntry S.counter e l) S.schedule
    let scheduled (l : List Entry) : State := { s.setSec .s3 { S with schedule := l } with cuts := { c with
      lastTongue := if (inUse c.tonguePair).isSome then some (at' (c.hT + c.rT)) else c.lastTongue
      lastGroove := if (inUse c.groovePair).isSome then some (at' (c.hG + c.rG + r.pieceLen)) else c.lastGroove } }
    ((∀ p, r.disp ≠ .pocket p) ∨ tongue ++ groove = [] → s.endMatch i = s)
    ∧ (∀ p, r.disp = .pocket p → tongue ++ groove ≠ [] →
      (conflicts ∨ full →
        let t := s.endMatch i
        t.record i = { r with
          faults := { r.faults with endMatchSkipped := true }
          disp := .bin s.run.settings.regrade .endMatchSkipped
          placement := none }
        ∧ (∀ j, j ≠ i → t.record j = s.record j) ∧ t.secs = s.secs ∧ t.cuts = c ∧ t.out = s.out
        ∧ t.run = { s.run with counters := { s.run.counters with
            endSkipped := if r.faults.endMatchSkipped then s.run.counters.endSkipped
              else s.run.counters.endSkipped + 1 } }
        ∧ (r.placement = none → t.pockets = s.pockets ∧ t.labels = s.labels)
        ∧ (∀ pl, r.placement = some pl →
          let u := (s.withoutPlacement pl).closingTest pl.pocket
          t.pockets = u.pockets ∧ t.labels = u.labels))
      ∧ (¬ conflicts → ¬ full → (∀ e ∈ S.schedule, e.index ≠ i) →
        ((∀ e ∈ tongue ++ groove, s.isReached .s3 e.due = false) → s.endMatch i = scheduled inserted)
        ∧ (∀ first rest k, tongue ++ groove = first :: rest → first.action = .pairTarget k ⟨true, false⟩ →
          s.isReached .s3 first.due = true → (∀ e ∈ rest, s.isReached .s3 e.due = false) →
          s.endMatch i = (scheduled (inserted.erase first)).targetRequest (.unit .s3) r.tag k ⟨true, false⟩)))
    ∧ (∀ (e : Entry) (k : Fin 6) (want : Combo), e.index = i → e.action = .pairTarget k want →
      s.fireEntry .s3 e =
        (s.setSec .s3 { S with schedule := S.schedule.erase e }).targetRequest (.unit .s3) r.tag k want)

/-- The sort commit: a record placed in a pocket that takes it, and a record for a bin that is accepting, have their
kick scheduled; a record for a bin that is not goes to the run-off; any other is only marked. A bin that the line
settings do not name is log 32. -/
def Obligations.SortCommits : Prop :=
  ∀ (s : State) (i : Fin 64), s.live i = true →
    let r := s.record i
    let marked := { r with sortCommitted := true }
    let kicked (p : Fin 12) (l : Fin 24) (bin : Option (Fin 12)) : Entry :=
      ⟨addCounts r.lead ((s.sec .s4).cfg.toCounts ((s.pocket p).cfg.position + (s.pocket p).cfg.offset)), .linePulse l, i,
        bin⟩
    let scheduled (e : Entry) : State := (s.setRecord i marked).setSec .s4
      { s.sec .s4 with schedule := insertEntry (s.sec .s4).counter e (s.sec .s4).schedule }
    ((s.sec .s4).schedule.length ≤ 31 → (∀ e ∈ (s.sec .s4).schedule, e.index ≠ i) →
      (∀ p l pl, r.disp = .pocket p → r.placement = some pl → (s.pocket pl.pocket).state ∈ [.filling, .closing] →
        (s.pocket pl.pocket).cfg.kicker = some l → s.isReached .s4 (kicked pl.pocket l none).due = false →
        s.sortCommit i = scheduled (kicked pl.pocket l none))
      ∧ (∀ p l why, r.disp = .bin (some p) why → (s.pocket p).cfg.isBin = true →
        (s.pocket p).state ∈ [.empty, .filling] → (s.pocket p).count + s.pendingKicks p < (s.pocket p).cfg.capacity →
        (s.pocket p).cfg.kicker = some l → s.isReached .s4 (kicked p l none).due = false →
        s.sortCommit i = scheduled (kicked p l (some p))))
    ∧ (∀ p why, r.disp = .bin (some p) why → r.placement = none →
      (s.pocket p).cfg.isBin = false ∨ (s.pocket p).state ∉ [.empty, .filling]
        ∨ (s.pocket p).cfg.capacity ≤ (s.pocket p).count + s.pendingKicks p →
      s.sortCommit i = s.setRecord i { marked with disp := .runoff .overflowFull })
    ∧ (r.disp = .undecided ∨ (∃ why, r.disp = .runoff why) → s.sortCommit i = s.setRecord i marked)

/-- The sort commit of a strip whose pocket takes no more pieces (R139): its reservation is taken out of its row without the
closing test; the walk from the pocket's alternate finds it a new place, where it is reserved and its kick scheduled, or it
is for the overflow bin as no fit, and is dealt with as such in the same event. -/
def Obligations.RePlacement : Prop :=
  ∀ (s : State) (i : Fin 64) (q : Fin 12) (pl : Placement), s.live i = true → (s.record i).disp = .pocket q →
    (s.record i).placement = some pl → (s.pocket pl.pocket).state ∉ [.filling, .closing] →
    let r := s.record i
    let moved := (s.withoutPlacement pl).setRecord i { r with
      sortCommitted := true
      placement := none }
    let found (g : Fin 8) := moved.placeAtSort pl.pocket g r.pieceLen
    (∀ g p row, r.grade = some g → found g = some (p, row) →
      let t := moved.reserve i p row r.pieceLen
      let k := s.pocket p
      s.sortCommit i = t.sortCommit i
      ∧ (t.pocket p).state ∈ [.filling, .closing]
      ∧ t.record i = { r with
        sortCommitted := true
        disp := .pocket p
        placement := some ⟨p, row, r.pieceLen + k.cfg.joint⟩ })
    ∧ ((∀ g, r.grade = some g → found g = none) → s.sortCommit i = (moved.setRecord i { r with
      sortCommitted := true
      placement := none
      disp := .bin s.run.settings.overflow .noFit }).sortCommit i)

/-- The walks of R134, at their first two pockets, and a reservation (R135 to R137): the primary pocket of a grade, if it
takes the piece, and otherwise its alternate; an EMPTY pocket opens its bundle, reported, and is then reserved in; in a
FILLING one the row's reserved fill and the reservation count rise, and the record's placement and disposition name the
place; a bundle whose rows are all below the close gap, or whose pieces and reservations reach the limit, is CLOSING,
reported. -/
def Obligations.Reservation : Prop :=
  (∀ (s : State) (g : Fin 8) (len : Nat),
    let member (p : Fin 12) : Prop := (s.pocket p).cfg.isBin = false ∧ (s.pocket p).cfg.grade = g
    let takes (p row : Fin 12) : Prop := (s.pocket p).state ∈ [.empty, .filling]
      ∧ (s.pocket p).fit (len + (s.pocket p).cfg.joint) = some row
    (∀ p, s.primary g = some p ↔ member p ∧ (s.pocket p).state ≠ .offline
      ∧ ∀ j, j < p → ¬ (member j ∧ (s.pocket j).state ≠ .offline))
    ∧ (s.primary g = none → s.placeAtCompletion g len = none)
    ∧ (∀ p row, s.primary g = some p → takes p row → s.placeAtCompletion g len = some (p, row))
    ∧ (∀ p q row, s.primary g = some p → (∀ k, ¬ takes p k) → (s.pocket p).cfg.alternate = some q → q ≠ p →
      member q → takes q row → s.placeAtCompletion g len = some (q, row))
    ∧ (∀ p, s.primary g = some p → (∀ k, ¬ takes p k) → (s.pocket p).cfg.alternate = none →
      s.placeAtCompletion g len = none)
    ∧ (∀ p q row, (s.pocket p).cfg.alternate = some q → q ≠ p → member q → takes q row →
      s.placeAtSort p g len = some (q, row))
    ∧ (∀ p, (s.pocket p).cfg.alternate = none → s.placeAtSort p g len = none)
    ∧ (∀ p q, (s.pocket p).cfg.alternate = some q → q = p ∨ ¬ member q → s.placeAtSort p g len = none))
  ∧ (∀ (s : State) (i : Fin 64) (p row : Fin 12) (len : Nat), s.live i = true →
    let k := s.pocket p
    let amount := len + k.cfg.joint
    (k.state = .empty →
      let fresh : Bundle := { grade := k.cfg.grade }
      s.reserve i p row len = ((s.modPocket p (fun x => { x with
        state := .filling
        bundle := some fresh })).offer ({ k with bundle := some fresh }.report p .empty .filling .opened 0)).reserve
          i p row len)
    ∧ (∀ b, k.state = .filling → k.bundle = some b →
      let b' : Bundle := { b with
        reserved := b.reserved.set row (b.reserved[row] + amount)
        reservations := b.reservations + 1 }
      let placed (u : State) : State := u.setRecord i { s.record i with
        placement := some ⟨p, row, amount⟩
        disp := .pocket p }
      let rowsFull := ∀ j : Fin 12, j.val < k.cfg.rows → k.cfg.rowLen - b'.committed[j] - b'.reserved[j] < k.cfg.closeGap
      let piecesFull := k.cfg.maxPieces ≤ b'.pieces + b'.reservations
      let closes (why : CloseReason) : State :=
        let last : Bundle := { b' with closeReason := why }
        (placed (s.modPocket p (fun x => { x with
          state := .closing
          bundle := some last }))).offer ({ k with bundle := some last }.report p .filling .closing .closing 0)
      (¬ rowsFull → ¬ piecesFull →
        s.reserve i p row len = placed (s.modPocket p (fun x => { x with bundle := some b' })))
      ∧ (rowsFull → s.reserve i p row len = closes .full)
      ∧ (¬ rowsFull → piecesFull → s.reserve i p row len = closes .maxPieces)))

/-- A line-pulse entry of S4 that fires leaves the schedule and is the kick of its record (R34, R142): its kicker line takes
the pulse (a HELD line stays), or in an armed pair a line-in-pair report is offered; the kick is taken either way, and the
drain test follows. The kick of a piece commits it to its bundle row, or raises the count of its bin; the record is
released, and the kicked counter of the pocket rises. The order of the event is the model's (log 11), and so is that the
PROTECT report goes before the kick (log 51); the clock of a pulse is log 5. -/
def Obligations.PiecesKicked : Prop :=
  (∀ (s : State) (e : Entry) (l : Fin 24), e.action = .linePulse l →
    let S := s.sec .s4
    let fired : State := s.setSec .s4 { S with schedule := S.schedule.erase e }
    (∀ p, s.pairOf l = some p → s.fireEntry .s4 e =
      ((fired.offer (.lineInPair (.unit .s4) (s.record e.index).tag l p)).kickTaken e.index).drainTest)
    ∧ (s.pairOf l = none → (s.line l).state = .held → s.fireEntry .s4 e = (fired.kickTaken e.index).drainTest)
    ∧ (s.pairOf l = none → (s.line l).state ≠ .held →
      let x := s.line l
      let struck : Line := { x with
        state := .pulsing (s.clock + x.cfg.width)
        phase := if x.state ≠ .off then x.phase
          else if x.cfg.holdDuty then some (.full (s.clock + x.cfg.pullIn)) else none }
      let pulsed : State := { fired with out := { s.out with
        lines := s.out.lines.set l struck
        saw := if s.cuts.sawLine = some l then some (s.clock + s.cuts.sawRecovery) else s.out.saw } }
      s.fireEntry .s4 e = (pulsed.kickTaken e.index).drainTest))
  ∧ ∀ (s : State) (i : Fin 64), s.live i = true →
    (∀ p pl b, (s.record i).disp = .pocket p → (s.record i).placement = some pl →
      (s.pocket pl.pocket).state = .filling → (s.pocket pl.pocket).bundle = some b →
      let len := (s.record i).pieceLen
      let band := bandIdx (s.table s.solver.active).bands len
      let t := s.kickTaken i
      (t.pocket pl.pocket).bundle = some { b with
          reserved := b.reserved.set pl.row (b.reserved[pl.row] - pl.amount)
          committed := b.committed.set pl.row (b.committed[pl.row] + pl.amount)
          pieces := b.pieces + 1
          reservations := b.reservations - 1
          total := b.total + len
          histogram := b.histogram.set band (b.histogram[band] + 1) }
        ∧ (t.pocket pl.pocket).state = .filling ∧ (∀ q, q ≠ pl.pocket → t.pocket q = s.pocket q) ∧ t.record i = {}
        ∧ t.run.counters.kicked = s.run.counters.kicked.set pl.pocket (s.run.counters.kicked[pl.pocket] + 1))
    ∧ (∀ p why, (s.record i).disp = .bin (some p) why → (s.record i).placement = none →
      (s.pocket p).state ∈ [.empty, .filling] →
      let t := s.kickTaken i
      (t.pocket p).count = (s.pocket p).count + 1
        ∧ (t.pocket p).state = (if (s.pocket p).cfg.capacity ≤ (s.pocket p).count + 1 then .full else .filling)
        ∧ (∀ q, q ≠ p → t.pocket q = s.pocket q) ∧ t.record i = {}
        ∧ t.run.counters.kicked = s.run.counters.kicked.set p (s.run.counters.kicked[p] + 1))

/-! ### The scan link -/

/-- A SCAN_START frame sent leaves the outbound queue; a frame received whole joins the intake queue, or is dropped
and counted when 24 are held. The frame at the head of the intake queue leaves it: outside RUN and DRAIN nothing else
happens; inside, a malformed one is counted, and is a bad frame of the head that it names; one of an unknown tag is counted,
and is a bad frame of its head; a late one is counted, and is a good frame of its head. The rows of the frame kinds and of
malformed frames take the frame at the head of the intake queue (log 4). -/
def Obligations.ScanLinkQueues : Prop :=
  ((∀ s : State, exec .scanStartSent s = .next { s with scan := { s.scan with starts := s.scan.starts.tail } })
  ∧ (∀ (s : State) (kind id : Byte) (p : List Byte),
    (s.scan.queue.length < 24 → exec (.scanFrameReceived kind id p) s = .next { s with
      host := { s.host with rxScan := .hunting }
      scan := { s.scan with queue := s.scan.queue ++ [⟨kind, id, p⟩] } })
    ∧ (24 ≤ s.scan.queue.length → exec (.scanFrameReceived kind id p) s = .next { s with
      host := { s.host with rxScan := .hunting }
      scan := { s.scan with overflow := s.scan.overflow + 1 } })))
  ∧ (∀ (s : State) (f : Frame) (rest : List Frame), s.scan.queue = f :: rest →
    let malformed := (f.kind = 0x11 → parseDefects f.payload = none) ∧ (f.kind = 0x12 → parseScanEnd f.payload = none)
      ∧ (f.kind = 0x13 → parseProfile f.payload = none)
    let left : State := { s with scan := { s.scan with queue := rest } }
    let counted : State := { s with scan := { s.scan with
      queue := rest
      linkErr := s.scan.linkErr + 1 } }
    (s.running = false →
      (f.kind = 0x11 → exec .defects s = .next left) ∧ (f.kind = 0x12 → exec .scanEnd s = .next left)
      ∧ (f.kind = 0x13 → exec .profile s = .next left) ∧ (malformed → exec .malformedScanFrame s = .next left))
    ∧ (s.running = true → malformed →
      (readableHead f.kind f.payload = none → exec .malformedScanFrame s = .next counted)
      ∧ (∀ h, readableHead f.kind f.payload = some h → exec .malformedScanFrame s = .next (counted.judged h true))
      ∧ (f.kind = 0x11 → exec .defects s = exec .malformedScanFrame s)
      ∧ (f.kind = 0x12 → exec .scanEnd s = exec .malformedScanFrame s)
      ∧ (f.kind = 0x13 → exec .profile s = exec .malformedScanFrame s))
    ∧ (s.running = true →
      let unknown : State := { left with scan := { left.scan with unknown := s.scan.unknown + 1 } }
      let late : State := { left with scan := { left.scan with late := s.scan.late + 1 } }
      (∀ d, f.kind = 0x11 → parseDefects f.payload = some d →
        (s.findTag d.tag = none → exec .defects s = .next (unknown.judged d.face.head true))
        ∧ (∀ i, s.findTag d.tag = some i → (s.record i).committed = true ∨ (s.record i).face d.face ≠ .awaiting →
          exec .defects s = .next (late.judged d.face.head false)))
      ∧ (∀ tag face total, f.kind = 0x12 → parseScanEnd f.payload = some (tag, face, total) →
        (s.findTag tag = none → exec .scanEnd s = .next (unknown.judged face.head true))
        ∧ (∀ i, s.findTag tag = some i → (s.record i).committed = true ∨ (s.record i).face face ≠ .awaiting →
          exec .scanEnd s = .next (late.judged face.head false)))
      ∧ (∀ tag v, f.kind = 0x13 → parseProfile f.payload = some (tag, v) →
        (s.findTag tag = none → exec .profile s = .next (unknown.judged .profile true))
        ∧ (∀ i, s.findTag tag = some i → (s.record i).sortCommitted = true ∨ (s.record i).profile ≠ .awaiting →
          exec .profile s = .next (late.judged .profile false))))
    ∧ (¬ malformed → exec .malformedScanFrame s = .next s))

/-- An attachable DEFECTS frame: of a NORMAL head, its entries join the record's list, clamped to the strip, and the tally
counts them; an entry that finds 16 held is not stored, nor is the rest, the face is OVERFLOW and the strip unscanned; of a
DEGRADED head, the face is DEGRADED and the strip unscanned. Each is a good frame of the head, whose state is read before
the frame's own count (log 27). The row takes the frame at the head of the intake queue (log 4). -/
def Obligations.DefectsAttach : Prop :=
  ∀ (s : State) (f : Frame) (rest : List Frame) (d : DefectsFrame) (i : Fin 64),
    s.running = true → s.scan.queue = f :: rest → f.kind = 0x11 → parseDefects f.payload = some d →
    s.findTag d.tag = some i → (s.record i).committed = false → (s.record i).face d.face = .awaiting →
    let r := s.record i
    let left : State := { s with scan := { s.scan with queue := rest } }
    let fits := r.defects.length + d.entries.length ≤ 16
    let stored := d.entries.take (16 - r.defects.length)
    let joined : Record := { r with
      defects := r.defects ++ stored.map (fun e =>
        let start := if r.len ≤ e.start then r.len - 1 else e.start
        ⟨e.cls, d.face, start, min e.extent (r.len - start), e.severity⟩) }
    let tallied : State := { left with scan := { left.scan with
      tallies := s.scan.tallies.set i (s.scan.tallies[i].setFace d.face
        { count := (s.tally i d.face).count + stored.length
          more := if fits then d.more else (s.tally i d.face).more }) } }
    ((s.head d.face.head).degraded = false →
      (fits → exec .defects s = .next ((tallied.setRecord i joined).judged d.face.head false))
      ∧ (¬ fits →
        exec .defects s = .next ((tallied.unscannedAs i (joined.setFace d.face .overflow)).judged d.face.head false)))
    ∧ ((s.head d.face.head).degraded = true →
      exec .defects s = .next ((left.unscannedAs i (r.setFace d.face .degraded)).judged d.face.head false))

/-- An attachable SCAN_END of a NORMAL head: with the tally met and no more frames announced the face is COMPLETE, and a
strip complete on both faces and UNDECIDED joins the solve queue, or is taken at once by an IDLE solver, with a fresh
snapshot; otherwise the face is FAILED, a bad frame, and the strip is unscanned. Of a DEGRADED head: the face is DEGRADED
and the strip unscanned. The head's state is read before the frame's own count (log 27); the row takes the frame at the head
of the intake queue (log 4). -/
def Obligations.ScanEndCloses : Prop :=
  ∀ (s : State) (f : Frame) (rest : List Frame) (tag : Nat) (face : Face) (total : Nat) (i : Fin 64),
    s.running = true → s.scan.queue = f :: rest → f.kind = 0x12 → parseScanEnd f.payload = some (tag, face, total) →
    s.findTag tag = some i → (s.record i).committed = false → (s.record i).face face = .awaiting →
    let r := (s.record i).setFace face .complete
    let u : State := { s with scan := { s.scan with queue := rest } }
    ((s.head face.head).degraded = false →
      ((s.tally i face).count = total → (s.tally i face).more = false →
        let complete := r.top = .complete ∧ r.bottom = .complete ∧ r.disp = .undecided
        (¬ complete → exec .scanEnd s = .next ((u.setRecord i r).judged face.head false))
        ∧ (complete → s.solver.flight.isSome = true →
          exec .scanEnd s = .next (({ u with solver := { s.solver with queue := s.solver.queue ++ [i] } }.setRecord i
            { r with solve := .queued }).judged face.head false))
        ∧ (complete → s.solver.flight = none → s.solver.queue = [] →
          exec .scanEnd s = .next (({ u with solver := { s.solver with flight := some ⟨i, s.snapshot⟩ } }.setRecord i
            { r with solve := .solving }).judged face.head false))
        ∧ (∀ j behind, complete → s.solver.flight = none → s.solver.queue = j :: behind → j ≠ i → s.live j = true →
          exec .scanEnd s = .next ((({ u with solver := { s.solver with
              flight := some ⟨j, s.snapshot⟩
              queue := behind ++ [i] } }.setRecord i { r with solve := .queued }).setRecord j
            { s.record j with solve := .solving }).judged face.head false)))
      ∧ ((s.tally i face).count ≠ total ∨ (s.tally i face).more = true →
        exec .scanEnd s = .next ((u.unscannedAs i ((s.record i).setFace face .failed)).judged face.head true)))
    ∧ ((s.head face.head).degraded = true →
      exec .scanEnd s = .next ((u.unscannedAs i ((s.record i).setFace face .degraded)).judged face.head false))

/-- An attachable PROFILE frame, a good frame of the head: the deviations are stored and judged by the tolerances; a strip
that fails is counted and goes to the run-off, its placement handed back, unless it is for it already; the trends move, and
a change of the trend state is reported, and the feed-hold reason follows it. Of a DEGRADED head, or with checking off, the
strip is UNCHECKED. That the head's state is read before the frame's own count is log 27; that the reports of a hand-back go
before the PROFILE report is the model's choice (log 46), and so is that this goes before the reason (log 41). The row takes
the frame at the head of the intake queue (log 4). -/
def Obligations.ProfileJudged : Prop :=
  ∀ (s : State) (f : Frame) (rest : List Frame) (tag : Nat) (v : Vector Nat 4) (i : Fin 64),
    s.running = true → s.scan.queue = f :: rest → f.kind = 0x13 → parseProfile f.payload = some (tag, v) →
    s.findTag tag = some i → (s.record i).sortCommitted = false → (s.record i).profile = .awaiting →
    let r := s.record i
    let left : State := { s with scan := { s.scan with queue := rest } }
    (s.scan.profile.degraded = true ∨ s.check.enable = false →
      exec .profile s = .next ((left.setRecord i { r with profile := .unchecked }).judged .profile false))
    ∧ (s.scan.profile.degraded = false → s.check.enable = true →
      let d : Vector Int 4 := Vector.ofFn (fun j => (min 20000 v[j] : Nat) - (s.check.dims[j].nominal : Int))
      let trends : Vector Int 4 := Vector.ofFn (fun j =>
        s.check.trends[j] + Int.tdiv (16 * d[j] - s.check.trends[j]) (2 ^ s.check.shift))
      let moved : ProfileCheck := { s.check with trends := trends }
      let new : TrendState := moved.nextState
      let followed (t : State) : State := if new = s.check.state then t else
        ({ t with check := { t.check with state := new } }.offer
          (.profile new s.check.state (moved.deciding new) trends r.tag)).setReasons
            (fun h => { h with profile := decide (new = TrendState.limit) && s.check.hold })
      ((∀ j : Fin 4, d[j].natAbs ≤ s.check.dims[j].tolerance) →
        exec .profile s = .next ((followed ({ left with check := moved }.setRecord i { r with
          deviations := some d
          profile := .pass })).judged .profile false))
      ∧ ((∃ j : Fin 4, s.check.dims[j].tolerance < d[j].natAbs) →
        let falls : Bool := (match r.disp with
          | .runoff _ => false
          | _ => true)
        exec .profile s = .next ((followed ({ if falls then left.handedBack r else left with check := { moved with
            fails := s.check.fails + 1 } }.setRecord i { r with
          deviations := some d
          profile := .fail
          disp := if falls then .runoff .profile else r.disp
          placement := if falls then none else r.placement })).judged .profile false)))

/-- The trends (R95): all four move in the event of a strip tested, pass or fail, toward sixteen times the deviation and
never beyond it; the taking of a PROFILE frame moves them so or keeps them; CLEAR_TREND and the two resets zero them; every
other request, SET_PROFILE and the run-state requests among them, entry to HALT and the end of a drain leave them; and so
does every other row, but for those that are a reset or can take a waiting or arriving CLEAR_TREND, which keep or zero
them. Every step keeps them, with the divisor and the nominals, within their range. Which rows bring requests is the
model's reading (logs 2, 3, 13 and 23). -/
def Obligations.TrendUpdates : Prop :=
  let moved (c : ProfileCheck) (v : Vector Nat 4) : Vector Int 4 := Vector.ofFn (fun j : Fin 4 =>
    let d : Int := (min 20000 v[j] : Nat) - (c.dims[j].nominal : Int)
    c.trends[j] + Int.tdiv (16 * d - c.trends[j]) (2 ^ c.shift))
  let zero : Vector Int 4 := #v[0, 0, 0, 0]
  let mayZero (c : Instr) : Prop := match c with
    | .powerOnReset _ => True
    | .softReset => True
    | .clearTrend _ p => p = []
    | .hostFrameReceived kind _ p => kind = 0x28 ∧ p = []
    | .unknownKind kind _ p => kind = 0x28 ∧ p = []
    | .frameError link _ => link = .host
    | .linkGapTimeout burst => burst.link = .host
    | .replySent => True
    | _ => False
  (∀ (s : State) (i : Fin 64) (v : Vector Nat 4), s.check.enable = true →
    (s.takeProfileValues i v).check.trends = moved s.check v)
  ∧ (∀ (k : Nat) (t d : Int), 1 ≤ k → k ≤ 8 →
    let u := t + Int.tdiv (16 * d - t) (2 ^ k)
    (t ≤ 16 * d → t ≤ u ∧ u ≤ 16 * d) ∧ (16 * d ≤ t → 16 * d ≤ u ∧ u ≤ t)
    ∧ (t.natAbs ≤ 320000 → d.natAbs ≤ 20000 → u.natAbs ≤ 320000)
    ∧ (t ≠ 16 * d → u ≠ 16 * d) ∧ ((16 * d - t).natAbs < 2 ^ k → u = t))
  ∧ (∀ s t : State, exec .profile s = .next t →
    t.check.trends = s.check.trends ∨ ∃ v, t.check.trends = moved s.check v)
  ∧ (∀ (s t : State) (found : InputPins), exec (.powerOnReset found) s = .next t ∨ exec .softReset s = .next t →
    t.check.trends = zero)
  ∧ (∀ (s : State) (id : Byte), (s.answer ⟨0x28, id, []⟩).1.check.trends = zero)
  ∧ (∀ (s : State) (f : Frame), f.kind ≠ 0x28 ∨ f.payload ≠ [] → (s.answer f).1.check.trends = s.check.trends)
  ∧ (∀ (s : State) (reason : HaltReason) (cause : RunCause), (s.enterHalt reason cause).check.trends = s.check.trends)
  ∧ (∀ s : State, s.drainTest.check.trends = s.check.trends)
  ∧ (∀ (c : Instr) (s t : State), exec c s = .next t → c ≠ .profile →
    (¬ mayZero c → t.check.trends = s.check.trends)
    ∧ (t.check.trends = s.check.trends ∨ t.check.trends = zero))
  ∧ State.reset.TrendsInRange
  ∧ (∀ s t : State, s.TrendsInRange → step s = .next t → t.TrendsInRange)

/-! ### The trim solver -/

/-- A defect entry lies in the piece of a candidate, and the entries that lie in it, each as it is and each for itself,
are those that its grade is judged on (R82). The band and the value of a candidate (R84). -/
def Obligations.DefectsAndValue : Prop :=
  ((∀ (d : Defect) (len t1 t2 : Nat),
    (d.inPiece len t1 t2 = true ↔ d.start < len - t2 ∧ t1 < d.start + d.extent)
    ∧ (d.extent = 0 → (d.inPiece len t1 t2 = true ↔ t1 < d.start ∧ d.start < len - t2)))
  ∧ (∀ (t : BankTable) (snap : Vector (Option SnapTarget) 8) (len : Nat) (ds : List Defect) (t1 t2 : Nat),
    (valueOf t snap len ds (t1, t2)).grade
      = t.gradeOf (len - t1 - t2) (ds.filter (fun d => d.inPiece len t1 t2))))
  ∧ ((∀ (bands : Vector Nat 7) (len : Nat),
    bandOf bands len = ((List.finRange 7).filter (fun i => decide (¬ len < bands[i]))).length ∧ bandOf bands len ≤ 7)
  ∧ bandOf #v[500, 1000, 2000, 3000, 3000, 3000, 3000] 3000 = 7
  ∧ bandOf #v[500, 1000, 2000, 3000, 3000, 3000, 3000] 2999 = 3
  ∧ (∀ (t : BankTable) (g : Fin 8) (len : Nat), t.value g len = (t.prices[g])[bandIdx t.bands len] * len / 1000
    ∧ (bandIdx t.bands len).val = bandOf t.bands len)
  ∧ (∀ (t : BankTable) (g : Fin 8) (len : Nat), (t.prices[g])[bandIdx t.bands len] ≤ 65535 → len ≤ 3000 →
    t.value g len ≤ 196605)
  ∧ (∀ (t : BankTable) (g : Fin 8), (t.prices[g])[bandIdx t.bands 3000] = 65535 → t.value g 3000 = 196605)
  ∧ (∀ (t : BankTable) (snap : Vector (Option SnapTarget) 8) (len : Nat) (ds : List Defect) (c : Nat × Nat),
    (valueOf t snap len ds c).grade = none → (valueOf t snap len ds c).value = 0))

/-- The grade of a piece (R83): the lowest-numbered grade that admits it; a defect counts on its accepting rule, the
matching rule of lowest index, and on no other. -/
def Obligations.GradeOfPiece : Prop :=
  ∀ t : BankTable,
    (∀ (g : Fin 8) (d : Defect) (k : Fin 48),
      let matching (j : Fin 48) : Prop := t.rules[j].used = true ∧ t.rules[j].grade = g
        ∧ (∀ bit, t.rules[j].mask.getLsbD bit = true → d.cls.getLsbD bit = t.rules[j].cls.getLsbD bit)
        ∧ (t.rules[j].faces = .both ∨ (t.rules[j].faces = .top ∧ d.face = .top)
          ∨ (t.rules[j].faces = .bottom ∧ d.face = .bottom))
        ∧ d.severity.toNat ≤ t.rules[j].maxSeverity.toNat
      (t.acceptor g d = some k ↔ matching k ∧ ∀ j, j < k → ¬ matching j)
      ∧ (t.acceptor g d = none ↔ ∀ j, ¬ matching j))
    ∧ (∀ (g : Fin 8) (len : Nat) (ds : List Defect),
      (t.admits g len ds = true ↔ t.grades[g].defined = true ∧ t.grades[g].lmin ≤ len
        ∧ (∀ d ∈ ds, t.acceptor g d ≠ none)
        ∧ ∀ k : Fin 48, (ds.filter (fun d => decide (t.acceptor g d = some k))).length ≤ t.rules[k].maxCount)
      ∧ (t.admits g len [] = true ↔ t.grades[g].defined = true ∧ t.grades[g].lmin ≤ len)
      ∧ (t.gradeOf len ds = some g ↔ t.admits g len ds = true ∧ ∀ h, h < g → t.admits h len ds = false)
      ∧ (t.gradeOf len ds = none ↔ ∀ h, t.admits h len ds = false))
    ∧ (∀ (snap : Vector (Option SnapTarget) 8) (len : Nat) (ds : List Defect) (t1 t2 : Nat),
      (valueOf t snap len ds (t1, t2)).grade
        = t.gradeOf (len - t1 - t2) (ds.filter (fun d => d.inPiece len t1 t2)))

/-- The fill bonus of a candidate (R85), with the target pocket's own joint, tolerance and bonus, and the best fit that
the reservation at completion uses, which there is whenever a row holds the piece. -/
def Obligations.FillBonus : Prop :=
  (∀ (t : BankTable) (snap : Vector (Option SnapTarget) 8) (len : Nat) (ds : List Defect) (t1 t2 : Nat),
    let w := valueOf t snap len ds (t1, t2)
    let piece := len - t1 - t2
    (∀ g, w.grade = some g →
      (∀ k, snap[g] = some k → (∃ gap ∈ k.gaps, piece + k.joint ≤ gap ∧ gap ≤ piece + k.joint + k.tolerance) →
        w.value = t.value g piece + t.value g piece * k.bonus / 100 ∧ w.bonus = true)
      ∧ ((∀ k, snap[g] = some k → ¬ ∃ gap ∈ k.gaps, piece + k.joint ≤ gap ∧ gap ≤ piece + k.joint + k.tolerance) →
        w.value = t.value g piece ∧ w.bonus = false))
    ∧ (w.grade = none → w.value = 0 ∧ w.bonus = false))
  ∧ (∀ (s : State) (g : Fin 8) (k : SnapTarget), s.snapTarget g = some k → ∃ p, s.target g = some p
    ∧ k.joint = (s.pocket p).cfg.joint ∧ k.tolerance = (s.pocket p).cfg.tolerance ∧ k.bonus = (s.pocket p).cfg.bonus
    ∧ k.gaps = (s.pocket p).rows.map (s.pocket p).gap)
  ∧ (∀ value bonus : Nat, value ≤ 196605 → bonus ≤ 50 → value + value * bonus / 100 ≤ 294907)
  ∧ 196605 + 196605 * 50 / 100 = 294907
  ∧ (∀ (k : Pocket) (need : Nat) (r : Fin 12), k.fit need = some r → r ∈ k.rows ∧ need ≤ k.gap r
    ∧ ∀ q ∈ k.rows, need ≤ k.gap q → k.gap r < k.gap q ∨ (k.gap r = k.gap q ∧ r ≤ q))
  ∧ (∀ (k : Pocket) (need : Nat), k.fit need = none ↔ ∀ r ∈ k.rows, k.gap r < need)

/-- The selection (R86): a graded candidate above every X candidate; among graded ones the higher value, then the longer
piece, then the smaller lead trim, which names one candidate; (tmin, tmin) when every candidate is X; something whenever
there is a candidate, and nothing when there is none. -/
def Obligations.Selection : Prop :=
  ∀ (t : BankTable) (snap : Vector (Option SnapTarget) 8) (len : Nat) (ds : List Defect),
    let worth := valueOf t snap len ds
    (∀ v c, select t snap len ds = some v → c ∈ t.candidates len → (worth c).grade.isSome = true →
      v.grade.isSome = true ∧ (∃ k ∈ t.candidates len, v = worth k)
      ∧ ((worth c).value < v.value ∨ ((worth c).value = v.value
        ∧ ((worth c).len < v.len ∨ ((worth c).len = v.len ∧ v.t1 ≤ (worth c).t1)))))
    ∧ (∀ c d, c ∈ t.candidates len → d ∈ t.candidates len → (worth c).len = (worth d).len → (worth c).t1 = (worth d).t1 →
      c = d)
    ∧ (t.candidates len ≠ [] → (∀ c ∈ t.candidates len, (worth c).grade = none) →
      select t snap len ds = some ⟨t.tmin, t.tmin, len - t.tmin - t.tmin, none, 0, false⟩)
    ∧ (t.candidates len ≠ [] → (select t snap len ds).isSome = true)
    ∧ (t.candidates len = [] → select t snap len ds = none)

/-- The end of a solve with no strip waiting behind it: no candidate, grade X, no place, or a place reserved, with all that
a reservation does to the pocket. -/
def Obligations.SolveCompletes : Prop :=
  ∀ (s : State) (f : Flight), s.solver.flight = some f → s.solver.queue = [] → s.live f.index = true →
    (s.record f.index).disp = .undecided → (s.record f.index).placement = none →
    let i := f.index
    let r := s.record i
    let chosen := select (s.table r.bank) f.snap r.len r.defects
    let u : State := { s with solver := { s.solver with flight := none } }
    let counted : State := { u with run := { s.run with counters := { s.run.counters with
      solved := s.run.counters.solved + 1 } } }
    (chosen = none → exec .solveComplete s = .next (u.setRecord i
      { r with
        solve := .none
        disp := .runoff .noGrade }))
    ∧ (∀ v, chosen = some v →
      let solved := { r with
        solution := some ⟨v.t1, v.t2, v.len, v.grade, v.value, v.bonus, s.slack i⟩
        solve := .solved }
      (v.grade = none → exec .solveComplete s = .next (counted.setRecord i { solved with disp := .runoff .noGrade }))
      ∧ (∀ g, v.grade = some g →
        (s.placeAtCompletion g v.len = none → exec .solveComplete s = .next (counted.setRecord i
          { solved with disp := .bin s.run.settings.overflow .noFit }))
        ∧ (∀ p row, s.placeAtCompletion g v.len = some (p, row) →
          let t := (counted.setRecord i solved).reserve i p row v.len
          exec .solveComplete s = .next t
            ∧ t.record i = { solved with
                disp := .pocket p
                placement := some ⟨p, row, v.len + (s.pocket p).cfg.joint⟩ }
            ∧ (∀ j, j ≠ i → t.record j = s.record j)
            ∧ t.run.counters = counted.run.counters ∧ t.solver = u.solver ∧ t.secs = s.secs ∧ t.cuts = s.cuts)))

/-! ### The output stage -/

/-- A running timer of the output stage runs out. A pulse no longer than the pull-in has ended by the end of the pull-in,
and is never chopped (R120). The clock and the deadlines are the model's (logs 5, 6). -/
def Obligations.OutputTimersExpire : Prop :=
  (∀ (s : State) (l : Fin 24) (n : Nat), (s.line l).state = .pulsing n →
    exec (.pulseWidthExpiry l) s = .next ({ s with clock := max s.clock n }.modLine l
      (fun x => { x with
        state := .off
        phase := none })))
  ∧ (∀ (s : State) (l : Fin 24) (n : Nat), (s.line l).phase = some (.full n) →
    let spent := (s.line l).state = .off ∨ ∃ ends, (s.line l).state = .pulsing ends ∧ ends ≤ n
    (¬ spent → exec (.pullInExpiry l) s = .next ({ s with clock := max s.clock n }.modLine l
      (fun x => { x with phase := some (.chopped true (max s.clock n + x.cfg.duty.onMs)) })))
    ∧ (spent → exec (.pullInExpiry l) s = .next s))
  ∧ (∀ (s : State) (l : Fin 24) (n : Nat), (s.line l).phase = some (.chopped true n) → (s.line l).cfg.duty ≠ .full →
    exec (.chopPeriod l) s = .next ({ s with clock := max s.clock n }.modLine l
      (fun x => { x with phase := some (.chopped false (max s.clock n + (8 - x.cfg.duty.onMs))) })))
  ∧ (∀ (s : State) (l : Fin 24) (n : Nat), (s.line l).phase = some (.chopped false n) →
    exec (.chopPeriod l) s = .next ({ s with clock := max s.clock n }.modLine l
      (fun x => { x with phase := some (.chopped true (max s.clock n + x.cfg.duty.onMs)) })))
  ∧ (∀ (s : State) (p : Fin 6) (q : Pair) (n : Nat), s.pair p = some q → q.timer = some n →
    exec (.deadTimeExpiry p) s = .next ({ s with clock := max s.clock n }.setPair p (some { q with
      shown := match q.target with
        | some c => c
        | none => q.safe
      timer := none
      target := none })))
  ∧ (∀ (s : State) (n : Nat), s.out.saw = some n →
    exec .sawRecoveryExpiry s = .next { s with
      clock := max s.clock n
      out := { s.out with saw := none } })

/-- A target request as the pair takes it: with the dead time stopped, with the dead time running, and for the
forbidden combination. The clock is the model's (log 5). -/
def Obligations.PairTargets : Prop :=
  ∀ (s : State) (source : Source) (tag : Nat) (p : Fin 6) (q : Pair) (c : Combo),
    s.pair p = some q →
    (c = q.safe.complement → s.targetRequest source tag p c =
      (s.setPair p (some { q with
        shown := q.safe
        target := none })).offer (.forbidden source tag p c q.safe))
    ∧ (c ≠ q.safe.complement → q.timer = none →
      (c = q.shown → s.targetRequest source tag p c = s.setPair p (some q))
      ∧ (c ≠ q.shown → c = q.safe ∨ q.shown = q.safe →
        s.targetRequest source tag p c = s.setPair p (some { q with shown := c }))
      ∧ (c ≠ q.shown → c ≠ q.safe → q.shown ≠ q.safe → q.dead = 0 →
        s.targetRequest source tag p c = s.setPair p (some { q with shown := c }))
      ∧ (c ≠ q.shown → c ≠ q.safe → q.shown ≠ q.safe → 0 < q.dead →
        s.targetRequest source tag p c = s.setPair p (some { q with
          shown := q.safe
          timer := some (s.clock + q.dead)
          target := some c })))
    ∧ (c ≠ q.safe.complement → q.timer.isSome = true →
      s.targetRequest source tag p c = s.setPair p (some { q with target := if c = q.safe then none else some c }))

/-! ### Clear inputs -/

/-- The 10 ms filter of a clear input, and what a clear edge does to a bin, to a CLOSED pocket by its label entry, and
to a pocket that takes none. The clock and the deadline are the model's (logs 5, 6), and so is what the report on a
cleared bin or bundle carries (log 34); that it goes before the grant of the freed entry is log 25. -/
def Obligations.ClearInputFiltered : Prop :=
  ∀ (s : State) (p : Fin 12),
    (∀ active : Bool,
      let u := { s with pins := { s.pins with clears := s.pins.clears.set p active } }
      (active = s.clears[p].level → exec (.clearEdge p (.takes active)) s = .next { u with
        clears := s.clears.set p { s.clears[p] with pending := none } })
      ∧ (active ≠ s.clears[p].level → s.clears[p].pending = none → exec (.clearEdge p (.takes active)) s = .next { u with
        clears := s.clears.set p { s.clears[p] with pending := some (s.clock + 10) } })
      ∧ (active ≠ s.clears[p].level → s.clears[p].pending.isSome = true → exec (.clearEdge p (.takes active)) s = .next u))
    ∧ (∀ n : Nat, s.clears[p].pending = some n →
      let u := { s with
        clock := max s.clock n
        clears := s.clears.set p { level := !s.clears[p].level, pending := none } }
      (s.clears[p].level = true ∨ (s.pocket p).state ∈ [.offline, .empty, .closing, .stalled] →
        exec (.clearEdge p .held) s = .next u)
      ∧ (s.clears[p].level = false → (s.pocket p).cfg.isBin = true → (s.pocket p).state ∈ [.filling, .full] →
        exec (.clearEdge p .held) s = .next ((u.modPocket p (fun k => { k with
          count := 0
          state := .empty })).offer ({ s.pocket p with count := 0 }.report p (s.pocket p).state .empty .cleared 0)))
      ∧ (s.clears[p].level = false → (s.pocket p).cfg.isBin = false → (s.pocket p).state ∈ [.filling, .full] →
        exec (.clearEdge p .held) s = .next u)
      ∧ (s.clears[p].level = false → (s.pocket p).state = .closed → s.labelDone p = false →
        exec (.clearEdge p .held) s = .next (u.offer ((s.pocket p).report p .closed .closed .clearIgnored 0)))
      ∧ (∀ (b : Bundle) (e : LabelEntry), s.clears[p].level = false → (s.pocket p).state = .closed →
        (s.pocket p).bundle = some b → b.label = .labelled e.serial → s.labelEntry e.serial = some e →
        (s.labelDone p = true ↔ e.status = .printed ∨ e.status = .skipped)
        ∧ (e.status = .printed ∨ e.status = .skipped →
          exec (.clearEdge p .held) s = .next (({ u.modPocket p (fun k => { k with
              state := .empty
              bundle := none }) with
            labels := { s.labels with queue := s.labels.queue.filter (fun y => decide (y.serial ≠ e.serial)) } }).offer
              ((s.pocket p).report p .closed .empty .cleared 0)).grant)))

/-! ### The label channel -/

/-- The closing test and the grant of a freed entry (R144, R145), with the serial and the entry of a composition (R156,
R157): a CLOSING bundle with no reservation is discarded when it has no piece, takes a label entry and is CLOSED while the
queue has room, and otherwise waits for one; a freed entry goes to the lowest-numbered pocket that waits. The serial is the
first from the counter on that no entry holds, and the counter stands one step beyond it. What a "discarded" report carries
is the model's choice (log 34). -/
def Obligations.ClosingTests : Prop :=
  (∀ s : State, s.labels.queue.length ≤ 8 → 1 ≤ s.labels.serial → s.labels.serial ≤ 99999999 →
    let next (n : Nat) := if n = 99999999 then 1 else n + 1
    let held (n : Nat) : Prop := ∃ e ∈ s.labels.queue, e.serial = n
    1 ≤ s.nextSerial ∧ s.nextSerial ≤ 99999999 ∧ ¬ held s.nextSerial
    ∧ ∃ k ≤ 8, s.nextSerial = Nat.repeat next k s.labels.serial ∧ ∀ j < k, held (Nat.repeat next j s.labels.serial))
  ∧ (∀ (s : State) (p : Fin 12) (b : Bundle), (s.pocket p).bundle = some b →
    let k := s.pocket p
    let n := s.nextSerial
    let labels := s.labels
    let composed : LabelEntry :=
      { serial := n
        pocket := p
        grade := b.grade
        name := ((s.table s.solver.active).grades[b.grade]).name
        species := labels.species
        lot := labels.lot
        pieces := b.pieces
        total := b.total
        area := (b.total * labels.width + 500) / 1000
        histogram := b.histogram
        closeReason := b.closeReason
        copies := labels.copies
        status := .queued
        cause := .none
        code := 0
        afterStop := false }
    let labelled : Bundle := { b with label := .labelled n }
    let waits : Bundle := { b with label := .waiting }
    let closed : State := ({ s with labels := { labels with
      queue := labels.queue ++ [composed]
      serial := if n = 99999999 then 1 else n + 1 } }.trySend.modPocket p (fun x => { x with
        state := .closed
        bundle := some labelled })).offer ({ k with bundle := some labelled }.report p .closing .closed .closed n)
    (k.state ≠ .closing ∨ b.label ≠ .none ∨ b.reservations ≠ 0 → s.closingTest p = s)
    ∧ (k.state = .closing → b.label = .none → b.reservations = 0 →
      (b.pieces = 0 → s.closingTest p = (s.modPocket p (fun x => { x with
        state := .empty
        bundle := none })).offer (k.report p .closing .empty .discarded 0))
      ∧ (b.pieces ≠ 0 → labels.queue.length < 8 → s.closingTest p = closed)
      ∧ (b.pieces ≠ 0 → 8 ≤ labels.queue.length → s.closingTest p = (s.modPocket p (fun x => { x with
        bundle := some waits })).offer ({ k with bundle := some waits }.report p .closing .closing .labelWait 0)))
    ∧ (k.state = .closing → b.label = .waiting → (∀ j : Fin 12, j < p → s.waiting j = false) →
      (labels.queue.length < 8 → s.grant = closed) ∧ (8 ≤ labels.queue.length → s.grant = s)))
  ∧ (∀ s : State, ((∀ p : Fin 12, s.waiting p = false) → s.grant = s)
    ∧ ∀ p : Fin 12, s.waiting p = true ↔
      (s.pocket p).state = .closing ∧ ∃ b, (s.pocket p).bundle = some b ∧ b.label = .waiting)

/-- A send starts when the channel is IDLE, no frame is on the link, the flow condition holds and an entry is QUEUED: the
first one becomes the current one, SENDING, and its frame goes out; otherwise none starts. The pace interval, a permit and
READY are what let it start. The last byte of a PRINT_LABEL frame: the current entry awaits its answer with the ack timer
running, and a STOP during the transmission is reported. The clock and the deadlines are the model's (logs 5, 6); that no
second frame goes out while one is in flight is log 19; the mark of a STOP during the transmission is log 24. -/
def Obligations.LabelSends : Prop :=
  (∀ s : State,
    let flows : Prop := (match s.labels.flow with
      | .free => True
      | .paced => ∀ n, s.labels.prevSend = some n → n + s.labels.pace ≤ s.clock
      | .readyLevel => s.pins.ready = true
      | .readyPulse => s.labels.permit = true)
    (∀ e, s.labels.state = .idle → s.labels.wire = none → flows → s.firstQueued = some e →
      s.trySend = { s with labels := { s.labels with
        state := .sending
        current := some e.serial
        prevSend := some s.clock
        permit := if s.labels.flow = FlowMode.readyPulse then false else s.labels.permit
        wire := some e.frame
        stopSeen := false } }.modEntry e.serial (fun x => { x with status := .sending }))
    ∧ (s.labels.state ≠ .idle ∨ s.labels.wire ≠ none ∨ ¬ flows ∨ s.firstQueued = none → s.trySend = s))
  ∧ (∀ (s : State) (e : LabelEntry), s.labels.state = .idle → s.labels.wire = none → s.firstQueued = some e →
    (∀ n, s.labels.flow = .paced → s.labels.prevSend = some n →
      let clock := max s.clock (n + s.labels.pace)
      exec .paceInterval s = .next ({ s with
        clock := clock
        labels := { s.labels with
          state := .sending
          current := some e.serial
          prevSend := some clock
          wire := some e.frame
          stopSeen := false } }.modEntry e.serial (fun x => { x with status := .sending })))
    ∧ (s.labels.flow = .readyPulse → s.labels.permit = false → s.pins.ready = false →
      exec (.readyChange true) s = .next ({ s with
        pins := { s.pins with ready := true }
        labels := { s.labels with
          state := .sending
          current := some e.serial
          prevSend := some s.clock
          permit := false
          wire := some e.frame
          stopSeen := false } }.modEntry e.serial (fun x => { x with status := .sending })))
    ∧ (s.labels.flow = .readyLevel → s.pins.ready = false →
      exec (.readyChange true) s = .next ({ s with
        pins := { s.pins with ready := true }
        labels := { s.labels with
          state := .sending
          current := some e.serial
          prevSend := some s.clock
          wire := some e.frame
          stopSeen := false } }.modEntry e.serial (fun x => { x with status := .sending }))))
  ∧ (∀ (s : State) (e : LabelEntry) (f : Frame), s.labels.wire = some f → s.labels.state = .sending →
    s.labels.current = some e.serial → s.labelEntry e.serial = some e →
    let t := { s with labels := { s.labels with
      wire := none
      state := .awaitAck
      ackTimer := some (s.clock + s.labels.ackTimeout)
      stopSeen := false } }.modEntry e.serial (fun x => { x with status := .awaitAck })
    exec .labelTransmissionComplete s = .next (if s.labels.stopSeen
      then t.offer (.label e.serial e.pocket .sentAfterStop .awaitAck e.copies e.cause e.code e.afterStop) else t))

/-- ACK, NAK and the ack timer: a reply that is not matched is counted; a matched ACK asks for the next copy or makes the
entry PRINTED, and the channel is PAUSED, STOPPED, or IDLE and may send again; a matched NAK, and the ack timer's expiry,
make it FAILED and the channel stands in FAULT. The clock and the deadline are the model's (logs 5, 6). -/
def Obligations.PrinterAnswers : Prop :=
  (∀ (s : State) (n : BitVec 32) (code : Byte),
    let heard := { s with host := { s.host with rxPrinter := .hunting } }
    (¬ (s.labels.state = .awaitAck ∧ s.labels.current = some n.toNat) →
      exec (.ack n) s = .next { heard with labels := { s.labels with unmatched := s.labels.unmatched + 1 } }
      ∧ exec (.nak n code) s = .next { heard with labels := { s.labels with unmatched := s.labels.unmatched + 1 } })
    ∧ (∀ e : LabelEntry, s.labels.state = .awaitAck → s.labels.current = some n.toNat →
      s.labelEntry n.toNat = some e →
      (s.labels.pausePending = true ∨ s.pins.stop = true →
        let after := { s.labels with
          ackTimer := none
          current := none
          pausePending := false
          state := if s.labels.pausePending then .paused else .stopped }
        (1 < e.copies → exec (.ack n) s = .next ({ heard with labels := after }.modEntry n.toNat (fun x => { x with
          copies := x.copies - 1
          status := .queued })))
        ∧ (e.copies = 1 → exec (.ack n) s = .next (({ heard with labels := after }.modEntry n.toNat
          (fun x => { x with
            copies := 0
            status := .printed })).offer
              (.label e.serial e.pocket .printed .printed 0 e.cause e.code e.afterStop))))
      ∧ (s.labels.pausePending = false → s.pins.stop = false →
        let after := { s.labels with
          ackTimer := none
          current := none
          state := .idle }
        (1 < e.copies → exec (.ack n) s = .next ({ heard with labels := after }.modEntry n.toNat (fun x => { x with
          copies := x.copies - 1
          status := .queued })).trySend)
        ∧ (e.copies = 1 → exec (.ack n) s = .next (({ heard with labels := after }.modEntry n.toNat
          (fun x => { x with
            copies := 0
            status := .printed })).offer
              (.label e.serial e.pocket .printed .printed 0 e.cause e.code e.afterStop)).trySend))
      ∧ (exec (.nak n code) s = .next (({ heard with labels := { s.labels with
          ackTimer := none
          current := none
          pausePending := false
          state := if s.labels.pausePending then .paused else .fault
          faultEntry := if s.labels.pausePending then s.labels.faultEntry else some n.toNat } }.modEntry n.toNat
        (fun x => { x with
          status := .failed
          cause := .nak
          code := code })).offer (.label e.serial e.pocket .failed .failed e.copies .nak code e.afterStop)))))
  ∧ (∀ (s : State) (n t : Nat) (e : LabelEntry), s.labels.state = .awaitAck → s.labels.current = some n →
    s.labels.ackTimer = some t → s.labelEntry n = some e →
    exec .ackTimeout s = .next (({ s with
      clock := max s.clock t
      labels := { s.labels with
        ackTimer := none
        current := none
        pausePending := false
        state := if s.labels.pausePending then .paused else .fault
        faultEntry := if s.labels.pausePending then s.labels.faultEntry else some n } }.modEntry n
      (fun x => { x with
        status := .failed
        cause := .timeout
        code := 0 })).offer (.label e.serial e.pocket .failed .failed e.copies .timeout 0 e.afterStop)))

/-- The STOP line by the channel state; READY changes the channel in READY_LEVEL and READY_PULSE alone, and only when it
becomes asserted: in READY_PULSE it gives a permit when none is held, and in both a send may start, which in the states
named does not. That a level that is no change changes nothing is log 1. That a STOP during the transmission of the
current entry is remembered is the model's own mark (log 24). -/
def Obligations.StopAndReadyChange : Prop :=
  ∀ s : State,
    exec (.readyChange s.pins.ready) s = .next s ∧ exec (.stopChange s.pins.stop) s = .next s
    ∧ (∀ asserted : Bool, asserted ≠ s.pins.ready →
      asserted = false ∨ s.labels.flow = .free ∨ s.labels.flow = .paced
        ∨ (s.labels.flow = .readyPulse ∧ s.labels.permit = true) →
      exec (.readyChange asserted) s = .next { s with pins := { s.pins with ready := asserted } })
    ∧ (s.pins.ready = false →
      let u := { s with pins := { s.pins with ready := true } }
      let permitted := { u with labels := { s.labels with permit := true } }
      let rests := s.labels.state ≠ .idle ∨ s.labels.wire ≠ none ∨ s.firstQueued = none
      (s.labels.flow = .readyLevel → exec (.readyChange true) s = .next u.trySend
        ∧ (rests → exec (.readyChange true) s = .next u))
      ∧ (s.labels.flow = .readyPulse → s.labels.permit = false → exec (.readyChange true) s = .next permitted.trySend
        ∧ (rests → exec (.readyChange true) s = .next permitted)))
    ∧ (s.pins.stop = false →
      let u := { s with pins := { s.pins with stop := true } }
      (s.labels.state = .idle → exec (.stopChange true) s = .next { u with labels := { s.labels with state := .stopped } })
      ∧ (∀ n, s.labels.state = .sending → s.labels.current = some n →
        exec (.stopChange true) s = .next ({ u with labels := { s.labels with stopSeen := true } }.modEntry n
          (fun x => { x with afterStop := true })))
      ∧ (s.labels.state = .sending → s.labels.current = none → exec (.stopChange true) s = .next u)
      ∧ (s.labels.state ∈ [.awaitAck, .paused, .stopped, .fault] → exec (.stopChange true) s = .next u))
    ∧ (s.pins.stop = true →
      let u := { s with pins := { s.pins with stop := false } }
      (s.labels.state ≠ .stopped → exec (.stopChange false) s = .next u)
      ∧ (s.labels.state = .stopped →
        exec (.stopChange false) s = .next { u with labels := { s.labels with state := .idle } }.trySend)
      ∧ (s.labels.state = .stopped → s.firstQueued = none →
        exec (.stopChange false) s = .next { u with labels := { s.labels with state := .idle } }))

/-! ### The links -/

/-- Reception on a link (R187): a hunting receiver ignores every byte but the start byte, and a gap does nothing to it;
the bytes of a frame, taken by count, end in its arrival at the link's owner; a gap or a byte error within them, a
length above 240 and CRC bytes that do not match are a failed frame, and the receiver hunts; bytes are taken one after
another. A failed frame is counted on its link, and on the scan link in RUN and DRAIN a readable head takes a bad frame.
That a hunting receiver ignores a byte error, on a start byte too, is the model's choice (log 48), and so is that the
rows FRAME_ERROR and LINK_GAP_TIMEOUT carry the bytes that arrive (log 23). -/
def Obligations.Reception : Prop :=
  (∀ (s : State) (link : Link) (b : Byte), s.receiver link = .hunting →
    (b ≠ 0x5A → exec (.frameError link [.good b]) s = .next s)
    ∧ exec (.frameError link [.error]) s = .next s ∧ exec (.linkGapTimeout ⟨link, []⟩) s = .next s
    ∧ exec (.frameError link [.good 0x5A]) s = .next (s.setReceiver link (.receiving [])))
  ∧ (∀ (s : State) (link : Link) (f : Frame), s.receiver link = .hunting → f.payload.length ≤ 240 →
    let arriving (n : Nat) : List LineByte := (f.bytes.take n).map .good
    let whole := exec (.frameError link (arriving f.bytes.length)) s
    (match link with
      | .host => whole = exec (.hostFrameReceived f.kind f.id f.payload) s
      | .scan => whole = exec (.scanFrameReceived f.kind f.id f.payload) s
      | .printer =>
        (∀ n : BitVec 32, f.kind = 0x11 → f.payload = be32 n.toNat → whole = exec (.ack n) s)
        ∧ (∀ (n : BitVec 32) (code : Byte), f.kind = 0x12 → f.payload = be32 n.toNat ++ [code] →
          whole = exec (.nak n code) s)
        ∧ (¬ (f.kind = 0x11 ∧ f.payload.length = 4) → ¬ (f.kind = 0x12 ∧ f.payload.length = 5) →
          whole = exec (.printerMalformedFrame f.kind f.id f.payload) s))
    ∧ (∀ n, 1 ≤ n → n < f.bytes.length →
      exec (.frameError link (arriving n)) s = .next (s.setReceiver link (.receiving (f.bytes.take n).tail))
      ∧ exec (.frameError link (arriving n ++ [.error])) s = .next (s.linkError link none)
      ∧ exec (.linkGapTimeout ⟨link, arriving n⟩) s = .next (s.linkError link none))
    ∧ (∀ c d : Byte, [c, d] ≠ be16 (crc16 f.covered).toNat →
      exec (.frameError link (.good 0x5A :: (f.covered ++ [c, d]).map .good)) s =
        .next (s.linkError link (readableHead f.kind f.payload))))
  ∧ (∀ (s : State) (link : Link) (b : Byte), s.receiver link = .hunting → 240 < b.toNat →
    exec (.frameError link [.good 0x5A, .good b]) s = .next (s.linkError link none))
  ∧ (∀ (s t : State) (link : Link) (first rest : List LineByte), exec (.frameError link first) s = .next t →
    exec (.frameError link (first ++ rest)) s = exec (.frameError link rest) t
    ∧ exec (.linkGapTimeout ⟨link, first ++ rest⟩) s = exec (.linkGapTimeout ⟨link, rest⟩) t)
  ∧ (∀ (s : State) (h : Option Head),
    s.linkError .host h = { s with host := { s.host with
      rxHost := .hunting
      frameErr := s.host.frameErr + 1 } }
    ∧ (let u := { s with
        host := { s.host with rxPrinter := .hunting }
        labels := { s.labels with linkErr := s.labels.linkErr + 1 } }
      s.linkError .printer h = u
      ∧ ∀ (kind id : Byte) (p : List Byte), ¬ (kind = 0x11 ∧ p.length = 4) → ¬ (kind = 0x12 ∧ p.length = 5) →
        exec (.printerMalformedFrame kind id p) s = .next u)
    ∧ (let u := { s with
        host := { s.host with rxScan := .hunting }
        scan := { s.scan with linkErr := s.scan.linkErr + 1 } }
      (h = none ∨ s.running = false → s.linkError .scan h = u)
      ∧ (∀ x, h = some x → s.running = true → s.linkError .scan h = u.judged x true)))

/-- A frame received whole on the host link: one of no request kind is counted; a request joins the queue behind
others, and with 4 held it is dropped and counted; one of an unassigned kind at an empty queue is replied
UNKNOWN_KIND. That the row UNKNOWN_KIND is the arrival of such a frame is log 2. -/
def Obligations.HostFramesQueued : Prop :=
  ∀ (s : State) (kind id : Byte) (p : List Byte),
    let heard := { s.host with rxHost := .hunting }
    (kind = 0 ∨ 0x40 ≤ kind.toNat → exec (.hostFrameReceived kind id p) s = .next { s with
      host := { heard with frameErr := s.host.frameErr + 1 } })
    ∧ (kind ≠ 0 → kind.toNat ≤ 0x3F → 1 ≤ s.host.requests.length → s.host.requests.length ≤ 3 →
      exec (.hostFrameReceived kind id p) s = .next { s with
        host := { heard with requests := s.host.requests ++ [⟨kind, id, p⟩] } })
    ∧ (kind ≠ 0 → kind.toNat ≤ 0x3F → 4 ≤ s.host.requests.length →
      exec (.hostFrameReceived kind id p) s = .next { s with host := { heard with overrun := s.host.overrun + 1 } })
    ∧ (unassigned kind = true → s.host.requests = [] →
      exec (.unknownKind kind id p) s = .next (s.taken kind id p (fun u => u) [0x09])
      ∧ exec (.hostFrameReceived kind id p) s = .next (s.taken kind id p (fun u => u) [0x09]))

/-- The last byte of a reply: its request leaves the queue; with none behind it a report starts or the link rests;
with one behind it that one is taken, and its reply goes before every report. The end of the OK reply to RESET is the
soft reset. The last byte of a report: it leaves the queue, and a waiting reply, or else the next report, starts. That
the next request is taken before the arbiter picks is log 13. -/
def Obligations.FramesSent : Prop :=
  (∀ (s : State) (f : Frame), s.host.tx = .reply f →
    (f.kind ≠ 0x95 ∨ f.payload ≠ [0] →
      (∀ r, s.host.requests = [r] → s.host.waiting = none → exec .replySent s = .next { s with host := { s.host with
        requests := []
        tx := if s.reports.queue = [] then .idle else .report } })
      ∧ (∀ r q rest, s.host.requests = r :: q :: rest →
        let a := { s with host := { s.host with requests := q :: rest } }.answer q
        exec .replySent s = .next { a.1 with host := { a.1.host with
          tx := .reply ⟨q.kind + 0x80, q.id, a.2⟩
          waiting := none } }))
    ∧ (f.kind = 0x95 → f.payload = [0] → exec .replySent s = exec .softReset s))
  ∧ (∀ (s : State) (r : QueuedReport) (rest : List QueuedReport), s.host.tx = .report → s.reports.queue = r :: rest →
    let u := { s with reports := { s.reports with queue := rest } }
    (∀ f, s.host.waiting = some f → exec .reportSent s = .next { u with host := { s.host with
      tx := .reply f
      waiting := none } })
    ∧ (s.host.waiting = none → exec .reportSent s = .next { u with host := { s.host with
      tx := if rest = [] then .idle else .report } }))

/-- The admission of a report (R192). -/
def Obligations.ReportAdmission : Prop :=
  (∀ (s : State) (r : Report),
    let held := s.reports.queue.length
    (s.reports.mask.getLsbD r.kindIndex = true → s.offer r = s)
    ∧ (s.reports.mask.getLsbD r.kindIndex = false → (r.kindIndex = 0 ∧ 48 - held < 8) ∨ 48 - held = 0 →
      s.offer r = { s with reports := { s.reports with lost := min 65535 (s.reports.lost + 1) } })
    ∧ (s.reports.mask.getLsbD r.kindIndex = false → (r.kindIndex = 0 → 8 ≤ 48 - held) → 48 - held ≠ 0 →
      (s.offer r).reports = { s.reports with
        queue := s.reports.queue ++ [⟨s.reports.seq, s.reports.lost, r⟩]
        seq := s.reports.seq + 1
        lost := 0 }
      ∧ (s.host.waiting = none → s.offer r = { s with
        reports := (s.offer r).reports
        host := { s.host with tx := if s.reports.queue = [] ∧ s.host.tx = .idle then .report else s.host.tx } })))
  ∧ (∀ q : QueuedReport, q.frame.id = q.seq ∧ q.frame.payload.take 2 = be16 q.lost)
  ∧ (∀ (s t : State) (found : InputPins), exec (.powerOnReset found) s = .next t ∨ exec .softReset s = .next t →
    t.reports.lost = 0 ∧ t.reports.seq = 0)

/-- A request that is refused changes no state of the part. -/
def Obligations.RefusedRequestsChangeNothing : Prop :=
  ∀ (f : Frame) (s : State), (s.answer f).2.head? ≠ some 0 → (s.answer f).1 = s


/-! ### Settings requests

A request row is the arrival of the request's frame on an empty request queue (log 2). -/

/-- SET_SECTION stores the section's settings, clears its divider accumulator and sets its high mark; for section 2 it
stores the saw settings, for section 3 the end-head settings. -/
def Obligations.SetSection : Prop :=
  ∀ (s : State) (id : Byte) (p : List Byte), s.host.requests = [] → s.run.state = .config → SectionPayload p →
    let window := clamp 5 200 (u16 p 10)
    exec (.setSection id p) s = .next (s.taken 0x02 id p
      (fun u => { u.setSec (secOf (u8 p 0)) { u.sec (secOf (u8 p 0)) with
          cfg :=
            { inverted := decide (u8 p 1 = 1)
              divider := u8 p 2
              scale := u16 p 3
              debounce := min 15 (u8 p 5)
              reversal := min 4095 (u16 p 6)
              distance := u16 p 8
              window := window
              commit := if u8 p 0 = 2 then u16 p 12 else (u.sec (secOf (u8 p 0))).cfg.commit
              sort := if u8 p 0 = 4 then u16 p 14 else (u.sec (secOf (u8 p 0))).cfg.sort }
          acc := 0
          highMark := (u.sec (secOf (u8 p 0))).counter } with
        cuts :=
          if u8 p 0 = 2 then { u.cuts with
            sawPos := u16 p 16
            sawLine := optIdx 24 (u8 p 18)
            sawRecovery := clamp 20 2000 (u16 p 19) }
          else if u8 p 0 = 3 then { u.cuts with
            tonguePair := optIdx 6 (u8 p 21)
            groovePair := optIdx 6 (u8 p 22)
            hT := u16 p 23
            hG := u16 p 25
            aT := u16 p 27
            rT := u16 p 29
            aG := u16 p 31
            rG := u16 p 33
            clearance := min 200 (u8 p 35) }
          else u.cuts })
      [0, flagByte (decide (15 < u8 p 5) || decide (4095 < u16 p 6) || decide (window ≠ u16 p 10)
        || (decide (u8 p 0 = 2) && decide (clamp 20 2000 (u16 p 19) ≠ u16 p 19))
        || (decide (u8 p 0 = 3) && decide (200 < u8 p 35)))])

/-- SET_OUTPUT drives the line off and stores its configuration; the feed-hold line is asked on again while a reason
stands (log 39); the clock is the model's (log 5). ARM_PAIR binds two lines; what they drive ends, and what they showed is
the pair's safe state; that both line units end OFF, a HELD one too, is the model's choice (log 15). -/
def Obligations.OutputConfiguration : Prop :=
  (∀ (s : State) (id : Byte) (p : List Byte) (l : Fin 24), s.host.requests = [] → s.run.state = .config → p.length = 8 →
    u8 p 0 = l.val → s.pairOf l = none → u8 p 1 ≤ 1 → u8 p 4 ≤ 1 → u8 p 7 ≤ 3 →
    let cfg : LineCfg :=
      { pulse := decide (u8 p 1 = 1)
        width := clamp 5 1000 (u16 p 2)
        holdDuty := decide (u8 p 4 = 1)
        pullIn := clamp 5 500 (u16 p 5)
        duty := match u8 p 7 with
          | 0 => .full
          | 1 => .half
          | 2 => .quarter
          | _ => .eighth }
    let reply := [0, flagByte (decide (cfg.width ≠ u16 p 2) || decide (cfg.pullIn ≠ u16 p 5))]
    (s.run.settings.feedLine ≠ some l ∨ s.run.reasons.any = false → exec (.setOutput id p) s = .next (s.taken 0x03 id p
      (fun u => u.modLine l (fun _ => { cfg := cfg, state := .off, phase := none })) reply))
    ∧ (s.run.settings.feedLine = some l → s.run.reasons.any = true → u8 p 1 = 0 →
      exec (.setOutput id p) s = .next (s.taken 0x03 id p
        (fun u => u.modLine l (fun _ =>
          { cfg := cfg
            state := .held
            phase := if u8 p 4 = 1 then some (.full (s.clock + cfg.pullIn)) else none })) reply)))
  ∧ (∀ (s : State) (id : Byte) (p : List Byte) (k : Fin 6) (l m : Fin 24), s.host.requests = [] →
    s.run.state = .config → p.length = 4 → u8 p 0 = k.val → u8 p 1 = l.val → u8 p 2 = m.val → s.pair k = none → l ≠ m →
    s.pairOf l = none → s.pairOf m = none → (s.line l).cfg.holdDuty = false → (s.line m).cfg.holdDuty = false →
    exec (.armPair id p) s = .next (s.taken 0x04 id p
      (fun u => ((u.setPair k (some
          { first := l
            second := m
            dead := min 250 (u8 p 3)
            safe := ⟨decide ((s.line l).state ≠ .off), decide ((s.line m).state ≠ .off)⟩
            shown := ⟨decide ((s.line l).state ≠ .off), decide ((s.line m).state ≠ .off)⟩
            timer := none
            target := none })).modLine l (fun x => { x with
              state := .off
              phase := none })).modLine m (fun x => { x with
                state := .off
                phase := none }))
      [0, flagByte (decide (250 < u8 p 3))]))

/-- SET_TRIM, SET_GRADE, SET_RULES and SET_PRICES, on a shadow bank that takes writes; SET_PRICES for a grade that does not
exist is refused. COMMIT_BANK by the run state. -/
def Obligations.BankRequests : Prop :=
  ((∀ (s : State) (id : Byte) (p : List Byte), s.host.requests = [] → s.solver.commitPending = false →
    s.unsolved s.solver.active.other = 0 →
    let shadow := s.solver.active.other
    (p.length = 18 → u8 p 0 ≤ 50 → 5 ≤ u8 p 1 → u8 p 1 ≤ 100 → u8 p 0 ≤ u16 p 2 → u16 p 2 ≤ 1000 →
      (∀ i : Fin 7, u16 p (4 + 2 * i.val) ≤ 3001) →
      (∀ i : Fin 6, u16 p (4 + 2 * i.val) ≤ u16 p (6 + 2 * i.val)) →
      exec (.setTrim id p) s = .next (s.taken 0x05 id p
        (fun u => u.setTable shadow { u.table shadow with
          tmin := u8 p 0
          step := u8 p 1
          tend := u16 p 2
          bands := Vector.ofFn (fun i => u16 p (4 + 2 * i.val)) }) [0, 0]))
    ∧ (∀ g : Fin 8, p.length = 12 → u8 p 0 = g.val → u8 p 1 ≤ 1 →
      (∀ i : Fin 8, 0x20 ≤ u8 p (2 + i.val) ∧ u8 p (2 + i.val) ≤ 0x7E) → 150 ≤ u16 p 10 → u16 p 10 ≤ 3000 →
      exec (.setGrade id p) s = .next (s.taken 0x06 id p
        (fun u => u.setTable shadow { u.table shadow with
          grades := (u.table shadow).grades.set g
            { defined := decide (u8 p 1 = 1)
              name := Vector.ofFn (fun i => p.getD (2 + i.val) 0)
              lmin := u16 p 10 } }) [0, 0]))
    ∧ (p.length = 2 + 6 * u8 p 1 → u8 p 0 ≤ 47 → u8 p 0 + u8 p 1 ≤ 48 → 1 ≤ u8 p 1 →
      (∀ k, k < u8 p 1 → u8 p (2 + 6 * k) ≤ 1 ∧ u8 p (3 + 6 * k) ≤ 7 ∧ 1 ≤ u8 p (5 + 6 * k) ∧ u8 p (5 + 6 * k) ≤ 3
        ∧ u8 p (6 + 6 * k) ≤ 15 ∧ 1 ≤ u8 p (7 + 6 * k) ∧ u8 p (7 + 6 * k) ≤ 16) →
      exec (.setRules id p) s = .next (s.taken 0x07 id p
        (fun u => u.setTable shadow { u.table shadow with
          rules := Vector.ofFn (fun i =>
            let k := i.val - u8 p 0
            if u8 p 0 ≤ i.val ∧ i.val < u8 p 0 + u8 p 1 then
              { used := decide (u8 p (2 + 6 * k) = 1)
                grade := Fin.ofNat 8 (u8 p (3 + 6 * k))
                cls := BitVec.ofNat 4 (u8 p (4 + 6 * k) / 16)
                mask := BitVec.ofNat 4 (u8 p (4 + 6 * k) % 16)
                faces := if u8 p (5 + 6 * k) = 1 then .top else if u8 p (5 + 6 * k) = 2 then .bottom else .both
                maxSeverity := BitVec.ofNat 4 (u8 p (6 + 6 * k))
                maxCount := u8 p (7 + 6 * k) }
            else (u.table shadow).rules[i]) }) [0, 0])))
  ∧ (∀ (s : State) (id : Byte) (p : List Byte), s.host.requests = [] → p.length = 17 →
    (7 < u8 p 0 → exec (.setPrices id p) s = .next (s.taken 0x08 id p (fun u => u) [0x03]))
    ∧ (∀ g : Fin 8, u8 p 0 = g.val → s.solver.commitPending = false → s.unsolved s.solver.active.other = 0 →
      exec (.setPrices id p) s = .next (s.taken 0x08 id p
        (fun u => u.setTable s.solver.active.other { u.table s.solver.active.other with
          prices := (u.table s.solver.active.other).prices.set g (Vector.ofFn (fun i => u16 p (1 + 2 * i.val))) })
        [0, 0]))))
  ∧ (∀ (s : State) (id : Byte), s.host.requests = [] →
    let defines := ∃ g : Fin 8, ((s.table s.solver.active.other).grades[g]).defined = true
    (s.run.state = .config ∨ s.run.state = .halt → exec (.commitBank id []) s = .next (s.taken 0x09 id []
      (fun u => { u with solver := { u.solver with
        active := u.solver.active.other
        commitPending := false } }) [0]))
    ∧ (s.run.state = .run ∨ s.run.state = .drain →
      (s.solver.commitPending = false → defines → exec (.commitBank id []) s = .next (s.taken 0x09 id []
        (fun u => { u with solver := { u.solver with commitPending := true } }) [0]))
      ∧ (s.solver.commitPending = false → ¬ defines →
        exec (.commitBank id []) s = .next (s.taken 0x09 id [] (fun u => u) [0x07, 1, 0]))
      ∧ (s.solver.commitPending = true →
        exec (.commitBank id []) s = .next (s.taken 0x09 id [] (fun u => u) [0]))))

/-- SET_PROFILE stores the settings; the trend state is tested once, and the reason "profile" follows it. CLEAR_TREND
zeroes the trends, sets the state to NORMAL, and removes the reason; a change of state is reported. That the PROFILE report
goes before the reason, and that SET_PROFILE lets the reason follow the hold flag before its test, is the model's choice
(log 41); that a report is admitted before the reply is handed over is log 14. -/
def Obligations.ProfileRequests : Prop :=
  (∀ (s : State) (id : Byte) (p : List Byte), s.host.requests = [] → p.length = 35 → u8 p 0 ≤ 1 → u8 p 1 ≤ 1 →
    (∀ i : Fin 4, u16 p (3 + 8 * i.val) ≤ 20000) →
    let c : ProfileCheck := { s.check with
      enable := decide (u8 p 0 = 1)
      hold := decide (u8 p 1 = 1)
      shift := clamp 1 8 (u8 p 2)
      dims := Vector.ofFn (fun i =>
        { nominal := u16 p (3 + 8 * i.val)
          tolerance := min 2000 (u16 p (5 + 8 * i.val))
          warn := min 2000 (u16 p (7 + 8 * i.val))
          limit := max (min 2000 (u16 p (7 + 8 * i.val))) (min 2000 (u16 p (9 + 8 * i.val))) }) }
    let clamped := decide (c.shift ≠ u8 p 2) || decide (∃ i : Fin 4, c.dims[i].tolerance ≠ u16 p (5 + 8 * i.val)
      ∨ c.dims[i].warn ≠ u16 p (7 + 8 * i.val) ∨ c.dims[i].limit ≠ u16 p (9 + 8 * i.val))
    let profile (st : TrendState) (u : State) := u.setReasons (fun r => { r with
      profile := decide (st = .limit) && c.hold })
    (c.nextState = s.check.state → exec (.setProfile id p) s = .next (s.taken 0x0A id p
      (fun u => profile s.check.state { u with check := c }) [0, flagByte clamped]))
    ∧ (c.nextState ≠ s.check.state → exec (.setProfile id p) s = .next (s.taken 0x0A id p
      (fun u => profile c.nextState (({ profile s.check.state { u with check := c } with
        check := { c with state := c.nextState } }).offer
          (.profile c.nextState s.check.state (c.deciding c.nextState) s.check.trends 0))) [0, flagByte clamped])))
  ∧ (∀ (s : State) (id : Byte), s.host.requests = [] →
    let zeroed (u : State) : State := { u with check := { u.check with
      trends := #v[0, 0, 0, 0]
      state := .normal } }
    let lifted (u : State) := u.setReasons (fun r => { r with profile := false })
    (s.check.state = .normal → exec (.clearTrend id []) s = .next (s.taken 0x28 id [] (fun u => lifted (zeroed u)) [0]))
    ∧ (s.check.state ≠ .normal → exec (.clearTrend id []) s = .next (s.taken 0x28 id []
      (fun u => lifted ((zeroed u).offer (.profile .normal s.check.state 4 #v[0, 0, 0, 0] 0))) [0])))

/-- SET_POCKET stores the configuration and puts the pocket in EMPTY or OFFLINE; a change is reported; that the report is
admitted before the reply is handed over is log 14, and what it carries of a bundle pocket without bundle is log 49. -/
def Obligations.SetPocket : Prop :=
  ∀ (s : State) (id : Byte) (p : List Byte) (k : Fin 12), s.host.requests = [] → u8 p 0 = k.val → PocketPayload p →
    (s.pocket k).state = .empty ∨ (s.pocket k).state = .offline →
    (s.pocket k).cfg.isBin = false ∨ s.pendingKicks k = 0 →
    let cfg : PocketCfg :=
      { inService := decide (u8 p 1 = 1)
        isBin := decide (u8 p 2 = 1)
        grade := Fin.ofNat 8 (u8 p 3)
        kicker := optIdx 24 (u8 p 4)
        position := u16 p 5
        offset := u16 p 7
        alternate := optIdx 12 (u8 p 9)
        rows := u8 p 10
        rowLen := u16 p 11
        joint := min 10 (u8 p 13)
        closeGap := min 1000 (u16 p 14)
        maxPieces := u8 p 16
        bonus := min 50 (u8 p 17)
        tolerance := min 100 (u8 p 18)
        capacity := u16 p 19 }
    let new : PocketState := if u8 p 1 = 1 then .empty else .offline
    let reply := [0, flagByte (decide (10 < u8 p 13) || decide (1000 < u16 p 14) || decide (50 < u8 p 17)
      || decide (100 < u8 p 18))]
    ((s.pocket k).state = new → exec (.setPocket id p) s = .next (s.taken 0x0B id p
      (fun u => u.modPocket k (fun x => { x with cfg := cfg })) reply))
    ∧ ((s.pocket k).state ≠ new → exec (.setPocket id p) s = .next (s.taken 0x0B id p
      (fun u => (u.modPocket k (fun x => { x with
        cfg := cfg
        state := new })).offer ({ s.pocket k with cfg := cfg }.report k (s.pocket k).state new .configured 0)) reply))

/-- SET_LINE stores the line settings; the role of the feed-hold line moves with them: the former line is asked off, and
the new one on while a reason stands, and a line of an armed pair takes no request; a changed threshold is tested (their
order is log 26); that the former line is asked off when the role moves to none is the model's choice (log 47); that a
report is admitted before the reply is handed over is log 14. -/
def Obligations.SetLine : Prop :=
  ∀ (s : State) (id : Byte) (p : List Byte), s.host.requests = [] → p.length = 5 →
    (u8 p 0 ≤ 11 ∨ u8 p 0 = 255) → (u8 p 1 ≤ 11 ∨ u8 p 1 = 255) → (u8 p 2 ≤ 23 ∨ u8 p 2 = 255) →
    (s.running = true → u8 p 0 ≠ 255 ∧ u8 p 1 ≠ 255) →
    let settings : LineSettings :=
      { regrade := optIdx 12 (u8 p 0)
        overflow := optIdx 12 (u8 p 1)
        feedLine := optIdx 24 (u8 p 2)
        threshold := clamp 2 16 (u8 p 3)
        tolerance := clamp 1 50 (u8 p 4) }
    let reply := [0, flagByte (decide (settings.threshold ≠ u8 p 3) || decide (settings.tolerance ≠ u8 p 4))]
    let stored (u : State) : State := { u with run := { u.run with settings := settings } }
    let tested (u : State) : State := if settings.threshold = s.run.settings.threshold then u
      else if u.pool.free.length < settings.threshold then u.setReasons (fun r => { r with lowRecords := true })
      else if settings.threshold + 2 ≤ u.pool.free.length then u.setReasons (fun r => { r with lowRecords := false })
      else u
    let ask (on : Bool) (l : Fin 24) (u : State) : State := match s.pairOf l with
      | some k => u.offer (.lineInPair .runControl 0 l k)
      | none => if on then u.levelOn l else u.levelOff l
    let left (u : State) : State := match s.run.settings.feedLine with
      | some l => ask false l u
      | none => u
    let joined (u : State) : State := (match settings.feedLine with
      | some l => if s.run.reasons.any then ask true l u else u
      | none => u)
    exec (.setLine id p) s = .next (s.taken 0x0C id p (fun u => tested
      (if settings.feedLine = s.run.settings.feedLine then stored u else joined (left (stored u)))) reply)

/-- SET_LABEL stores the label settings; a change of the flow mode clears the permit; the serial counter moves only when
the request says so; here no send may start by it. SET_REPORTS replaces the mask (R194). -/
def Obligations.SetLabelAndReports : Prop :=
  (∀ (s : State) (id : Byte) (p : List Byte), s.host.requests = [] → p.length = 25 →
    (∀ i, i < 12 → 0x20 ≤ u8 p i ∧ u8 p i ≤ 0x7E) → (u16 p 12 = 0 ∨ (300 ≤ u16 p 12 ∧ u16 p 12 ≤ 3000)) →
    1 ≤ u8 p 14 → u8 p 14 ≤ 3 → u8 p 15 ≤ 3 → u8 p 20 ≤ 1 → (u8 p 20 = 1 → 1 ≤ u32 p 21 ∧ u32 p 21 ≤ 99999999) →
    s.labels.state ≠ .idle →
    let flow : FlowMode := match u8 p 15 with
      | 0 => .free
      | 1 => .paced
      | 2 => .readyLevel
      | _ => .readyPulse
    let pace := clamp 100 60000 (u16 p 16)
    let timeout := clamp 100 10000 (u16 p 18)
    exec (.setLabel id p) s = .next (s.taken 0x0D id p
      (fun u => { u with labels := { u.labels with
        species := Vector.ofFn (fun i => p.getD i.val 0)
        lot := Vector.ofFn (fun i => p.getD (4 + i.val) 0)
        width := u16 p 12
        copies := u8 p 14
        flow := flow
        pace := pace
        ackTimeout := timeout
        serial := if u8 p 20 = 1 then u32 p 21 else u.labels.serial
        permit := if flow = u.labels.flow then u.labels.permit else false } })
      [0, flagByte (decide (pace ≠ u16 p 16) || decide (timeout ≠ u16 p 18))]))
  ∧ ((∀ (s : State) (id mask : Byte), s.host.requests = [] →
    exec (.setReports id [mask]) s = .next (s.taken 0x0E id [mask]
      (fun u => { u with reports := { u.reports with mask := mask } }) [0, 0]))
  ∧ (∀ (s : State) (r : Report), s.reports.mask.getLsbD r.kindIndex = true → s.offer r = s)
  ∧ (∀ r : Report, r.kindIndex ≤ 7)
  ∧ (∀ (s t : State) (found : InputPins), exec (.powerOnReset found) s = .next t → t.reports.mask = 0)
  ∧ (∀ s t : State, exec .softReset s = .next t → t.reports.mask = s.reports.mask)
  ∧ (∀ s : State, s.stateBytes.reverse[8]? = some s.reports.mask))

/-! ### Run control -/

/-- The set of feed-hold reasons changes; a change between empty and not empty sends a level request to the feed-hold
line, and a line of an armed pair does not take it. FEED_HOLD sets and removes the host's reason (R183), as the arrival of a
request (log 2); that a report is admitted before the reply is handed over is log 14. -/
def Obligations.FeedHoldReasons : Prop :=
  (∀ (s : State) (f : HoldReasons → HoldReasons),
    let u := { s with run := { s.run with reasons := f s.run.reasons } }
    let on := (f s.run.reasons).any
    (on = s.run.reasons.any ∨ s.run.settings.feedLine = none → s.setReasons f = u)
    ∧ (∀ l, on ≠ s.run.reasons.any → s.run.settings.feedLine = some l → s.pairOf l = none →
      s.setReasons f = if on then u.levelOn l else u.modLine l (fun x => { x with
        state := .off
        phase := none }))
    ∧ (∀ l p, on ≠ s.run.reasons.any → s.run.settings.feedLine = some l → s.pairOf l = some p →
      s.setReasons f = u.offer (.lineInPair .runControl 0 l p)))
  ∧ ((∀ (s : State) (id flag : Byte), s.host.requests = [] →
    (flag = 0 ∨ flag = 1 → exec (.feedHold id [flag]) s = .next (s.taken 0x14 id [flag]
      (fun u => u.setReasons (fun r => { r with host := decide (flag = 1) })) [0]))
    ∧ (flag ≠ 0 → flag ≠ 1 → exec (.feedHold id [flag]) s = .next (s.taken 0x14 id [flag] (fun u => u) [0x02])))
  ∧ (∀ (s : State) (f : HoldReasons → HoldReasons), (s.setReasons f).run.reasons = f s.run.reasons)
  ∧ (∀ (s t : State) (found : InputPins), exec (.powerOnReset found) s = .next t ∨ exec .softReset s = .next t →
    t.run.reasons.host = false))

/-- START_LINE: a complete configuration enters RUN from CONFIG and returns to RUN from DRAIN; in RUN nothing changes.
STOP_LINE: RUN becomes DRAIN, and the line stays there while a strip or an entry is left, and otherwise passes on to
CONFIG in the same event; in DRAIN nothing changes. The order at a change of run state is log 12; the rows are arrivals of
requests (log 2); that a report is admitted before the reply is handed over is log 14. -/
def Obligations.StartAndStopLine : Prop :=
  ∀ (s : State) (id : Byte), s.host.requests = [] →
    let complete := (∃ g : Fin 8, ((s.table s.solver.active).grades[g]).defined = true)
      ∧ (∀ x : Sec, (s.sec x).cfg.distance ≠ 0) ∧ s.cuts.sawLine.isSome = true
      ∧ (s.sec .s2).cfg.commit < s.cuts.sawPos
      ∧ s.run.settings.regrade.isSome = true ∧ s.run.settings.overflow.isSome = true
      ∧ (∀ p : Fin 12, (s.pocket p).state ≠ .offline → (s.sec .s4).cfg.sort < (s.pocket p).cfg.position)
    let running (u : State) : State := { u with run := { u.run with state := .run } }
    let lifted (u : State) : State := u.setReasons (fun r => { r with notRunning := false })
    (complete → s.run.state = .config → exec (.startLine id []) s = .next (s.taken 0x10 id []
      (fun u => (lifted { running u with
        secs := Vector.ofFn (fun i => { u.secs[i] with highMark := u.secs[i].counter })
        gauge := .idle }).offer (.run .config .run .startLine 0)) [0]))
    ∧ (complete → s.run.state = .drain → exec (.startLine id []) s = .next (s.taken 0x10 id []
      (fun u => (lifted (running u)).offer (.run .drain .run .startLine 0)) [0]))
    ∧ (s.run.state = .run → exec (.startLine id []) s = .next (s.taken 0x10 id [] (fun u => u) [0]))
    ∧ (s.run.state = .run → s.drained = false → exec (.stopLine id []) s = .next (s.taken 0x11 id []
      (fun u => ({ u with run := { u.run with state := .drain } }.setReasons
        (fun r => { r with notRunning := true })).offer (.run .run .drain .stopLine 0)) [0]))
    ∧ (s.run.state = .run → s.drained = true → ∃ t, exec (.stopLine id []) s = .next t ∧ t.run.state = .config
      ∧ t.run.reasons.notRunning = true ∧ t.gauge = .idle ∧ t.solver.commitPending = false
      ∧ t.solver.active = (if s.solver.commitPending then s.solver.active.other else s.solver.active)
      ∧ t.pool = s.pool ∧ t.pockets = s.pockets ∧ t.labels = s.labels)
    ∧ (s.run.state = .drain → exec (.stopLine id []) s = .next (s.taken 0x11 id [] (fun u => u) [0]))

/-- HALT_LINE: outside HALT the line halts with the host as the reason; in HALT nothing changes. CLEAR_HALT moves the
line from HALT to CONFIG; elsewhere it is refused. The order at a change of run state is log 12; the rows are arrivals of
requests (log 2); that a report is admitted before the reply is handed over is log 14. -/
def Obligations.HaltAndClearHalt : Prop :=
  (∀ (s : State) (id : Byte), s.host.requests = [] →
    (s.run.state ≠ .halt → s.pool.Partitioned →
      ∃ t, exec (.haltLine id []) s = .next t ∧ s.HaltedFrom t .host .haltLine)
    ∧ (s.run.state = .halt → exec (.haltLine id []) s = .next (s.taken 0x12 id [] (fun u => u) [0])))
  ∧ (∀ (s : State) (id : Byte), s.host.requests = [] →
    (s.run.state = .halt → exec (.clearHalt id []) s = .next (s.taken 0x13 id []
      (fun u => { u with
        run := { u.run with
          state := .config
          halt := .none }
        gauge := .idle
        secs := Vector.ofFn (fun i => { u.secs[i] with awaiting := none })
        cuts := { u.cuts with
          lastTongue := none
          lastGroove := none } }.offer (.run .halt .config .clearHalt 0)) [0]))
    ∧ (s.run.state ≠ .halt → exec (.clearHalt id []) s = .next (s.taken 0x13 id [] (fun u => u) [0x04])))

/-! ### Outputs, pockets and labels -/

/-- TEST_OUTPUT in its three forms, as R118 and R125 to R127 take the requests. The clock is the model's (log 5); the
saw recovery is log 20; the rows are arrivals of requests (log 2); that a report is admitted before the reply is handed
over is log 14. -/
def Obligations.TestOutput : Prop :=
  ∀ (s : State) (id : Byte), s.host.requests = [] → s.run.state = .config →
    (∀ l : Fin 24, s.pairOf l = none → s.run.settings.feedLine ≠ some l →
      let number := toByte l.val
      let x := s.line l
      let phase := if x.state ≠ .off then x.phase
        else if x.cfg.holdDuty then some (.full (s.clock + x.cfg.pullIn)) else none
      let pulsed (u : State) : State := { u.modLine l (fun y => { y with
          state := .pulsing (s.clock + x.cfg.width)
          phase := phase }) with
        out := { (u.modLine l (fun y => { y with
          state := .pulsing (s.clock + x.cfg.width)
          phase := phase })).out with
            saw := if s.cuts.sawLine = some l then some (s.clock + s.cuts.sawRecovery) else u.out.saw } }
      exec (.testOutputLevel id [number, 0]) s = .next (s.taken 0x16 id [0, number, 0]
        (fun u => u.modLine l (fun y => { y with
          state := .off
          phase := none })) [0])
      ∧ (x.state = .held → exec (.testOutputLevel id [number, 1]) s = .next (s.taken 0x16 id [0, number, 1]
          (fun u => u) [0])
        ∧ exec (.testOutputPulse id [number, 0]) s = .next (s.taken 0x16 id [1, number, 0] (fun u => u) [0]))
      ∧ (x.state ≠ .held → x.cfg.pulse = false →
        exec (.testOutputLevel id [number, 1]) s = .next (s.taken 0x16 id [0, number, 1]
          (fun u => u.modLine l (fun y => { y with
            state := .held
            phase := phase })) [0]))
      ∧ (x.state ≠ .held → x.cfg.pulse = true →
        exec (.testOutputLevel id [number, 1]) s = .next (s.taken 0x16 id [0, number, 1] pulsed [0]))
      ∧ (x.state ≠ .held →
        exec (.testOutputPulse id [number, 0]) s = .next (s.taken 0x16 id [1, number, 0] pulsed [0])))
    ∧ (∀ (p : Fin 6) (q : Pair) (v : Fin 4), s.pair p = some q →
      exec (.testOutputTarget id [toByte p.val, toByte v.val]) s =
        .next (s.taken 0x16 id [2, toByte p.val, toByte v.val]
          (fun u => u.targetRequest .host 0 p ⟨decide (2 ≤ v.val), decide (v.val % 2 = 1)⟩) [0]))

/-- CLOSE_POCKET, HOLD_POCKET, RELEASE_POCKET and CLEAR_POCKET. What a "cleared" report carries is log 34, and a report
on a bundle pocket without bundle log 49; that it goes before the grant of the freed entry is log 25; the rows are
arrivals of requests (log 2); that a report is admitted before the reply is handed over is log 14. That the report
"released" goes before the report of the closing test is the model's choice (log 50). -/
def Obligations.PocketRequests : Prop :=
  ∀ (s : State) (id : Byte) (k : Fin 12), s.host.requests = [] →
    let n := toByte k.val
    let x := s.pocket k
    (∀ b, x.cfg.isBin = false → x.state = .filling → x.bundle = some b → b.reservations ≠ 0 →
      exec (.closePocket id [n]) s = .next (s.taken 0x18 id [n]
        (fun u => (u.modPocket k (fun y => { y with
          state := .closing
          bundle := some { b with closeReason := .host } })).offer
            ({ x with bundle := some { b with closeReason := .host } }.report k .filling .closing .closing 0)) [0]))
    ∧ (∀ b, x.cfg.isBin = false → x.state = .filling → x.bundle = some b →
      exec (.closePocket id [n]) s = .next (s.taken 0x18 id [n]
        (fun u => ((u.modPocket k (fun y => { y with
          state := .closing
          bundle := some { b with closeReason := .host } })).offer
            ({ x with bundle := some { b with closeReason := .host } }.report k .filling .closing .closing 0)).closingTest k)
        [0]))
    ∧ (x.state ≠ .offline → x.state ≠ .stalled → exec (.holdPocket id [n]) s = .next (s.taken 0x19 id [n]
        (fun u => (u.modPocket k (fun y => { y with
          state := .stalled
          prior := some x.state
          bundle := x.bundle.map (fun b => { b with label := if b.label = .waiting then .none else b.label }) })).offer
            (x.report k x.state .stalled .held 0)) [0]))
    ∧ (x.state = .stalled → x.lost = true → exec (.releasePocket id [n]) s = .next (s.taken 0x1A id [n]
        (fun u => (u.modPocket k (fun y => { y with
          state := .empty
          prior := none
          lost := false
          bundle := none
          count := 0 })).offer (.pocket k x.cfg.isBin .stalled .empty .released .none 0 0 0)) [0]))
    ∧ (∀ st, x.state = .stalled → x.lost = false → x.prior = some st → st ≠ .closing →
      exec (.releasePocket id [n]) s = .next (s.taken 0x1A id [n]
        (fun u => (u.modPocket k (fun y => { y with
          state := st
          prior := none })).offer (x.report k .stalled st .released 0)) [0]))
    ∧ (x.state = .stalled → x.lost = false → x.prior = some .closing →
      exec (.releasePocket id [n]) s = .next (s.taken 0x1A id [n]
        (fun u => ((u.modPocket k (fun y => { y with
          state := .closing
          prior := none })).offer (x.report k .stalled .closing .released 0)).closingTest k) [0]))
    ∧ (∀ force : Bool, x.cfg.isBin = true → x.state = .filling ∨ x.state = .full →
      exec (.clearPocket id [n, flagByte force]) s = .next (s.taken 0x1B id [n, flagByte force]
        (fun u => (u.modPocket k (fun y => { y with
          state := .empty
          count := 0 })).offer ({ x with count := 0 }.report k x.state .empty .cleared 0)) [0]))
    ∧ (∀ (force : Bool) (b : Bundle) (e : LabelEntry), x.state = .closed → x.bundle = some b →
      b.label = .labelled e.serial → s.labelEntry e.serial = some e →
      e.status = .printed ∨ e.status = .skipped
        ∨ (force = true ∧ (e.status = .queued ∨ (e.status = .failed ∧ s.labels.faultEntry ≠ some e.serial))) →
      exec (.clearPocket id [n, flagByte force]) s = .next (s.taken 0x1B id [n, flagByte force]
        (fun u => (({ u.modPocket k (fun y => { y with
            state := .empty
            bundle := none }) with
          labels := { u.labels with queue := u.labels.queue.filter (fun y => decide (y.serial ≠ e.serial)) } }).offer
            (x.report k .closed .empty .cleared 0)).grant) [0]))
    ∧ (∀ (b : Bundle) (e : LabelEntry), x.state = .closed → x.bundle = some b → b.label = .labelled e.serial →
      s.labelEntry e.serial = some e → e.status ≠ .printed → e.status ≠ .skipped →
      exec (.clearPocket id [n, 0]) s = .next (s.taken 0x1B id [n, 0] (fun u => u) [0x08]))

/-- PAUSE_LABELS, RESUME_LABELS, SKIP_LABEL and REPRINT_LABEL. -/
def Obligations.LabelRequests : Prop :=
  ∀ (s : State) (id : Byte), s.host.requests = [] →
    (s.labels.state = .idle ∨ s.labels.state = .stopped →
      exec (.pauseLabels id []) s = .next (s.taken 0x20 id []
        (fun u => { u with labels := { u.labels with state := .paused } }) [0])
      ∧ exec (.resumeLabels id []) s = .next (s.taken 0x21 id [] (fun u => u) [0]))
    ∧ (s.labels.state = .sending ∨ s.labels.state = .awaitAck →
      exec (.pauseLabels id []) s = .next (s.taken 0x20 id []
        (fun u => { u with labels := { u.labels with pausePending := true } }) [0])
      ∧ exec (.resumeLabels id []) s = .next (s.taken 0x21 id []
        (fun u => { u with labels := { u.labels with pausePending := false } }) [0]))
    ∧ (s.labels.state = .paused →
      exec (.pauseLabels id []) s = .next (s.taken 0x20 id [] (fun u => u) [0])
      ∧ (s.pins.stop = true → exec (.resumeLabels id []) s = .next (s.taken 0x21 id []
        (fun u => { u with labels := { u.labels with state := .stopped } }) [0]))
      ∧ (s.pins.stop = false → s.firstQueued = none → exec (.resumeLabels id []) s = .next (s.taken 0x21 id []
        (fun u => { u with labels := { u.labels with state := .idle } }) [0])))
    ∧ (∀ n, s.labels.state = .fault → s.labels.faultEntry = some n → s.pins.stop = true →
      exec (.resumeLabels id []) s = .next (s.taken 0x21 id []
        (fun u => { u with labels := { u.labels with
          state := .stopped
          faultEntry := none } }.modEntry n (fun e => { e with
            status := .queued
            cause := .none
            code := 0 })) [0]))
    ∧ (∀ (e : LabelEntry), e.serial < 4294967296 → s.labelEntry e.serial = some e →
      (e.status = .queued ∨ e.status = .failed → s.labels.faultEntry ≠ some e.serial →
        exec (.skipLabel id (be32 e.serial)) s = .next (s.taken 0x22 id (be32 e.serial)
          (fun u => u.modEntry e.serial (fun y => { y with status := .skipped })) [0]))
      ∧ (e.status = .failed → s.labels.faultEntry = some e.serial → s.pins.stop = true →
        exec (.skipLabel id (be32 e.serial)) s = .next (s.taken 0x22 id (be32 e.serial)
          (fun u => { u with labels := { u.labels with
            state := .stopped
            faultEntry := none } }.modEntry e.serial (fun y => { y with status := .skipped })) [0]))
      ∧ (e.status ∈ [.printed, .failed, .skipped] → s.labels.faultEntry ≠ some e.serial → s.labels.state ≠ .idle →
        exec (.reprintLabel id (be32 e.serial)) s = .next (s.taken 0x23 id (be32 e.serial)
          (fun u => u.modEntry e.serial (fun y => { y with
            status := .queued
            copies := s.labels.copies
            cause := .none
            code := 0
            afterStop := false })) [0])))

/-! ### Queries -/

/-- The queries, and the RESET request, change nothing but the host link; CLEAR_COUNTS zeroes the counts it returns. The
contents are those of the event in which the request is taken. GET_LIST gives the members of a list from head to tail,
each with its tag; a code above 4 is refused. -/
def Obligations.Queries : Prop :=
  (∀ (s : State) (id : Byte), s.host.requests = [] →
    exec (.identify id []) s = .next (s.taken 0x01 id [] (fun u => u)
      ([0, 0x4F, 0x47, 0x5A, 0x2D, 0x32, 0x34, 0x31, 0x36, 1, toByte s.host.rate.toNat, 64, 32, 12, 48, 8, 48, 4]))
    ∧ exec (.getState id []) s = .next (s.taken 0x30 id [] (fun u => u) (0 :: (s.arrived ⟨0x30, id, []⟩).stateBytes))
    ∧ (∀ (tag : Fin 65536) (i : Fin 64), s.findTag tag.val = some i →
      exec (.getStrip id (be16 tag.val)) s = .next (s.taken 0x31 id (be16 tag.val) (fun u => u)
        (0 :: (s.record i).bytes i)))
    ∧ (∀ k : Fin 12, exec (.getPocket id [toByte k.val]) s = .next (s.taken 0x32 id [toByte k.val] (fun u => u)
      (0 :: ((s.pocket k).cfg.bytes k ++ [(s.pocket k).state.code, match (s.pocket k).prior with
          | some st => st.code
          | none => 0xFF, flagByte (s.pocket k).lost] ++ (s.pocket k).bundleBytes
        ++ be16 (if (s.pocket k).cfg.isBin then (s.pocket k).count else 0)
        ++ be16 (if (s.pocket k).cfg.isBin then s.pendingKicks k else 0)))))
    ∧ exec (.getLabels id [0, 0, 0, 0]) s = .next (s.taken 0x33 id [0, 0, 0, 0] (fun u => u) (0 :: s.labelSummary))
    ∧ exec (.getCounts id []) s = .next (s.taken 0x34 id [] (fun u => u) (0 :: s.countBytes))
    ∧ s.countBytes.length = 172
    ∧ exec (.clearCounts id []) s = .next (s.taken 0x35 id [] (fun u => { u with
        secs := Vector.ofFn (fun i => { u.secs[i] with edges := 0 })
        run := { u.run with counters := {} }
        scan := { u.scan with
          linkErr := 0
          overflow := 0
          unknown := 0
          late := 0 }
        check := { u.check with fails := 0 }
        labels := { u.labels with
          linkErr := 0
          unmatched := 0 }
        host := { u.host with
          frameErr := 0
          overrun := 0 } }) (0 :: s.countBytes))
    ∧ exec (.reset id []) s = .next (s.taken 0x15 id [] (fun u => u) [0]))
  ∧ (∀ (s : State) (id code : Byte), s.host.requests = [] →
    (4 < code.toNat → exec (.getList id [code]) s = .next (s.taken 0x36 id [code] (fun u => u) [0x03]))
    ∧ (code.toNat ≤ 4 →
      let members := match code.toNat with
        | 0 => s.pool.free
        | 1 => s.list .s1
        | 2 => s.list .s2
        | 3 => s.list .s3
        | _ => s.list .s4
      let contents := [code, toByte members.length]
        ++ members.flatMap (fun i => toByte i.val :: be16 (s.record i).tag)
      exec (.getList id [code]) s = .next (s.taken 0x36 id [code] (fun u => u) (0 :: contents))
      ∧ contents.length = 2 + 3 * members.length ∧ (members.length = 64 → contents.length = 194)
      ∧ (s.pool.Partitioned → members.length ≤ 64))
    ∧ (s.pool.Partitioned → ∀ i ∈ s.pool.free, (s.record i).tag = 0))
end

