-- ==== Sys2Proof/Laws/State.lean ====
section
/-! SUPPORT. One lemma per field per update of the state, and the reads after the writes. -/

namespace Sys2Proof.Machine

/-! `setSec` -/

@[simp] theorem State.setSec_pins (x : Sec) (u : SectionUnit) (s : State) : (s.setSec x u).pins = s.pins := rfl
@[simp] theorem State.setSec_pool (x : Sec) (u : SectionUnit) (s : State) : (s.setSec x u).pool = s.pool := rfl
@[simp] theorem State.setSec_cuts (x : Sec) (u : SectionUnit) (s : State) : (s.setSec x u).cuts = s.cuts := rfl
@[simp] theorem State.setSec_gauge (x : Sec) (u : SectionUnit) (s : State) : (s.setSec x u).gauge = s.gauge := rfl
@[simp] theorem State.setSec_scan (x : Sec) (u : SectionUnit) (s : State) : (s.setSec x u).scan = s.scan := rfl
@[simp] theorem State.setSec_solver (x : Sec) (u : SectionUnit) (s : State) : (s.setSec x u).solver = s.solver := rfl
@[simp] theorem State.setSec_check (x : Sec) (u : SectionUnit) (s : State) : (s.setSec x u).check = s.check := rfl
@[simp] theorem State.setSec_out (x : Sec) (u : SectionUnit) (s : State) : (s.setSec x u).out = s.out := rfl
@[simp] theorem State.setSec_pockets (x : Sec) (u : SectionUnit) (s : State) : (s.setSec x u).pockets = s.pockets := rfl
@[simp] theorem State.setSec_clears (x : Sec) (u : SectionUnit) (s : State) : (s.setSec x u).clears = s.clears := rfl
@[simp] theorem State.setSec_labels (x : Sec) (u : SectionUnit) (s : State) : (s.setSec x u).labels = s.labels := rfl
@[simp] theorem State.setSec_run (x : Sec) (u : SectionUnit) (s : State) : (s.setSec x u).run = s.run := rfl
@[simp] theorem State.setSec_reports (x : Sec) (u : SectionUnit) (s : State) : (s.setSec x u).reports = s.reports := rfl
@[simp] theorem State.setSec_host (x : Sec) (u : SectionUnit) (s : State) : (s.setSec x u).host = s.host := rfl
@[simp] theorem State.setSec_clock (x : Sec) (u : SectionUnit) (s : State) : (s.setSec x u).clock = s.clock := rfl
@[simp] theorem State.setSec_choice (x : Sec) (u : SectionUnit) (s : State) : (s.setSec x u).choice = s.choice := rfl
@[simp] theorem State.setSec_pending (x : Sec) (u : SectionUnit) (s : State) : (s.setSec x u).pending = s.pending := rfl

/-! `modSec` -/

@[simp] theorem State.modSec_pins (x : Sec) (f : SectionUnit → SectionUnit) (s : State) : (s.modSec x f).pins = s.pins := rfl
@[simp] theorem State.modSec_pool (x : Sec) (f : SectionUnit → SectionUnit) (s : State) : (s.modSec x f).pool = s.pool := rfl
@[simp] theorem State.modSec_cuts (x : Sec) (f : SectionUnit → SectionUnit) (s : State) : (s.modSec x f).cuts = s.cuts := rfl
@[simp] theorem State.modSec_gauge (x : Sec) (f : SectionUnit → SectionUnit) (s : State) : (s.modSec x f).gauge = s.gauge := rfl
@[simp] theorem State.modSec_scan (x : Sec) (f : SectionUnit → SectionUnit) (s : State) : (s.modSec x f).scan = s.scan := rfl
@[simp] theorem State.modSec_solver (x : Sec) (f : SectionUnit → SectionUnit) (s : State) : (s.modSec x f).solver = s.solver := rfl
@[simp] theorem State.modSec_check (x : Sec) (f : SectionUnit → SectionUnit) (s : State) : (s.modSec x f).check = s.check := rfl
@[simp] theorem State.modSec_out (x : Sec) (f : SectionUnit → SectionUnit) (s : State) : (s.modSec x f).out = s.out := rfl
@[simp] theorem State.modSec_pockets (x : Sec) (f : SectionUnit → SectionUnit) (s : State) : (s.modSec x f).pockets = s.pockets := rfl
@[simp] theorem State.modSec_clears (x : Sec) (f : SectionUnit → SectionUnit) (s : State) : (s.modSec x f).clears = s.clears := rfl
@[simp] theorem State.modSec_labels (x : Sec) (f : SectionUnit → SectionUnit) (s : State) : (s.modSec x f).labels = s.labels := rfl
@[simp] theorem State.modSec_run (x : Sec) (f : SectionUnit → SectionUnit) (s : State) : (s.modSec x f).run = s.run := rfl
@[simp] theorem State.modSec_reports (x : Sec) (f : SectionUnit → SectionUnit) (s : State) : (s.modSec x f).reports = s.reports := rfl
@[simp] theorem State.modSec_host (x : Sec) (f : SectionUnit → SectionUnit) (s : State) : (s.modSec x f).host = s.host := rfl
@[simp] theorem State.modSec_clock (x : Sec) (f : SectionUnit → SectionUnit) (s : State) : (s.modSec x f).clock = s.clock := rfl
@[simp] theorem State.modSec_choice (x : Sec) (f : SectionUnit → SectionUnit) (s : State) : (s.modSec x f).choice = s.choice := rfl
@[simp] theorem State.modSec_pending (x : Sec) (f : SectionUnit → SectionUnit) (s : State) : (s.modSec x f).pending = s.pending := rfl

/-! `modSecs` -/

@[simp] theorem State.modSecs_pins (f : SectionUnit → SectionUnit) (s : State) : (s.modSecs f).pins = s.pins := rfl
@[simp] theorem State.modSecs_pool (f : SectionUnit → SectionUnit) (s : State) : (s.modSecs f).pool = s.pool := rfl
@[simp] theorem State.modSecs_cuts (f : SectionUnit → SectionUnit) (s : State) : (s.modSecs f).cuts = s.cuts := rfl
@[simp] theorem State.modSecs_gauge (f : SectionUnit → SectionUnit) (s : State) : (s.modSecs f).gauge = s.gauge := rfl
@[simp] theorem State.modSecs_scan (f : SectionUnit → SectionUnit) (s : State) : (s.modSecs f).scan = s.scan := rfl
@[simp] theorem State.modSecs_solver (f : SectionUnit → SectionUnit) (s : State) : (s.modSecs f).solver = s.solver := rfl
@[simp] theorem State.modSecs_check (f : SectionUnit → SectionUnit) (s : State) : (s.modSecs f).check = s.check := rfl
@[simp] theorem State.modSecs_out (f : SectionUnit → SectionUnit) (s : State) : (s.modSecs f).out = s.out := rfl
@[simp] theorem State.modSecs_pockets (f : SectionUnit → SectionUnit) (s : State) : (s.modSecs f).pockets = s.pockets := rfl
@[simp] theorem State.modSecs_clears (f : SectionUnit → SectionUnit) (s : State) : (s.modSecs f).clears = s.clears := rfl
@[simp] theorem State.modSecs_labels (f : SectionUnit → SectionUnit) (s : State) : (s.modSecs f).labels = s.labels := rfl
@[simp] theorem State.modSecs_run (f : SectionUnit → SectionUnit) (s : State) : (s.modSecs f).run = s.run := rfl
@[simp] theorem State.modSecs_reports (f : SectionUnit → SectionUnit) (s : State) : (s.modSecs f).reports = s.reports := rfl
@[simp] theorem State.modSecs_host (f : SectionUnit → SectionUnit) (s : State) : (s.modSecs f).host = s.host := rfl
@[simp] theorem State.modSecs_clock (f : SectionUnit → SectionUnit) (s : State) : (s.modSecs f).clock = s.clock := rfl
@[simp] theorem State.modSecs_choice (f : SectionUnit → SectionUnit) (s : State) : (s.modSecs f).choice = s.choice := rfl
@[simp] theorem State.modSecs_pending (f : SectionUnit → SectionUnit) (s : State) : (s.modSecs f).pending = s.pending := rfl

/-! `setRecord` -/

@[simp] theorem State.setRecord_pins (i : Fin 64) (r : Record) (s : State) : (s.setRecord i r).pins = s.pins := rfl
@[simp] theorem State.setRecord_secs (i : Fin 64) (r : Record) (s : State) : (s.setRecord i r).secs = s.secs := rfl
@[simp] theorem State.setRecord_cuts (i : Fin 64) (r : Record) (s : State) : (s.setRecord i r).cuts = s.cuts := rfl
@[simp] theorem State.setRecord_gauge (i : Fin 64) (r : Record) (s : State) : (s.setRecord i r).gauge = s.gauge := rfl
@[simp] theorem State.setRecord_scan (i : Fin 64) (r : Record) (s : State) : (s.setRecord i r).scan = s.scan := rfl
@[simp] theorem State.setRecord_solver (i : Fin 64) (r : Record) (s : State) : (s.setRecord i r).solver = s.solver := rfl
@[simp] theorem State.setRecord_check (i : Fin 64) (r : Record) (s : State) : (s.setRecord i r).check = s.check := rfl
@[simp] theorem State.setRecord_out (i : Fin 64) (r : Record) (s : State) : (s.setRecord i r).out = s.out := rfl
@[simp] theorem State.setRecord_pockets (i : Fin 64) (r : Record) (s : State) : (s.setRecord i r).pockets = s.pockets := rfl
@[simp] theorem State.setRecord_clears (i : Fin 64) (r : Record) (s : State) : (s.setRecord i r).clears = s.clears := rfl
@[simp] theorem State.setRecord_labels (i : Fin 64) (r : Record) (s : State) : (s.setRecord i r).labels = s.labels := rfl
@[simp] theorem State.setRecord_run (i : Fin 64) (r : Record) (s : State) : (s.setRecord i r).run = s.run := rfl
@[simp] theorem State.setRecord_reports (i : Fin 64) (r : Record) (s : State) : (s.setRecord i r).reports = s.reports := rfl
@[simp] theorem State.setRecord_host (i : Fin 64) (r : Record) (s : State) : (s.setRecord i r).host = s.host := rfl
@[simp] theorem State.setRecord_clock (i : Fin 64) (r : Record) (s : State) : (s.setRecord i r).clock = s.clock := rfl
@[simp] theorem State.setRecord_choice (i : Fin 64) (r : Record) (s : State) : (s.setRecord i r).choice = s.choice := rfl
@[simp] theorem State.setRecord_pending (i : Fin 64) (r : Record) (s : State) : (s.setRecord i r).pending = s.pending := rfl

/-! `writeRecord` -/

@[simp] theorem State.writeRecord_pins (i : Fin 64) (f : Record → Record) (s : State) : (s.writeRecord i f).pins = s.pins := by unfold State.writeRecord; split <;> rfl
@[simp] theorem State.writeRecord_secs (i : Fin 64) (f : Record → Record) (s : State) : (s.writeRecord i f).secs = s.secs := by unfold State.writeRecord; split <;> rfl
@[simp] theorem State.writeRecord_cuts (i : Fin 64) (f : Record → Record) (s : State) : (s.writeRecord i f).cuts = s.cuts := by unfold State.writeRecord; split <;> rfl
@[simp] theorem State.writeRecord_gauge (i : Fin 64) (f : Record → Record) (s : State) : (s.writeRecord i f).gauge = s.gauge := by unfold State.writeRecord; split <;> rfl
@[simp] theorem State.writeRecord_scan (i : Fin 64) (f : Record → Record) (s : State) : (s.writeRecord i f).scan = s.scan := by unfold State.writeRecord; split <;> rfl
@[simp] theorem State.writeRecord_solver (i : Fin 64) (f : Record → Record) (s : State) : (s.writeRecord i f).solver = s.solver := by unfold State.writeRecord; split <;> rfl
@[simp] theorem State.writeRecord_check (i : Fin 64) (f : Record → Record) (s : State) : (s.writeRecord i f).check = s.check := by unfold State.writeRecord; split <;> rfl
@[simp] theorem State.writeRecord_out (i : Fin 64) (f : Record → Record) (s : State) : (s.writeRecord i f).out = s.out := by unfold State.writeRecord; split <;> rfl
@[simp] theorem State.writeRecord_pockets (i : Fin 64) (f : Record → Record) (s : State) : (s.writeRecord i f).pockets = s.pockets := by unfold State.writeRecord; split <;> rfl
@[simp] theorem State.writeRecord_clears (i : Fin 64) (f : Record → Record) (s : State) : (s.writeRecord i f).clears = s.clears := by unfold State.writeRecord; split <;> rfl
@[simp] theorem State.writeRecord_labels (i : Fin 64) (f : Record → Record) (s : State) : (s.writeRecord i f).labels = s.labels := by unfold State.writeRecord; split <;> rfl
@[simp] theorem State.writeRecord_run (i : Fin 64) (f : Record → Record) (s : State) : (s.writeRecord i f).run = s.run := by unfold State.writeRecord; split <;> rfl
@[simp] theorem State.writeRecord_reports (i : Fin 64) (f : Record → Record) (s : State) : (s.writeRecord i f).reports = s.reports := by unfold State.writeRecord; split <;> rfl
@[simp] theorem State.writeRecord_host (i : Fin 64) (f : Record → Record) (s : State) : (s.writeRecord i f).host = s.host := by unfold State.writeRecord; split <;> rfl
@[simp] theorem State.writeRecord_clock (i : Fin 64) (f : Record → Record) (s : State) : (s.writeRecord i f).clock = s.clock := by unfold State.writeRecord; split <;> rfl
@[simp] theorem State.writeRecord_choice (i : Fin 64) (f : Record → Record) (s : State) : (s.writeRecord i f).choice = s.choice := by unfold State.writeRecord; split <;> rfl
@[simp] theorem State.writeRecord_pending (i : Fin 64) (f : Record → Record) (s : State) : (s.writeRecord i f).pending = s.pending := by unfold State.writeRecord; split <;> rfl

/-! `setList` -/

@[simp] theorem State.setList_pins (x : Sec) (l : List (Fin 64)) (s : State) : (s.setList x l).pins = s.pins := rfl
@[simp] theorem State.setList_secs (x : Sec) (l : List (Fin 64)) (s : State) : (s.setList x l).secs = s.secs := rfl
@[simp] theorem State.setList_cuts (x : Sec) (l : List (Fin 64)) (s : State) : (s.setList x l).cuts = s.cuts := rfl
@[simp] theorem State.setList_gauge (x : Sec) (l : List (Fin 64)) (s : State) : (s.setList x l).gauge = s.gauge := rfl
@[simp] theorem State.setList_scan (x : Sec) (l : List (Fin 64)) (s : State) : (s.setList x l).scan = s.scan := rfl
@[simp] theorem State.setList_solver (x : Sec) (l : List (Fin 64)) (s : State) : (s.setList x l).solver = s.solver := rfl
@[simp] theorem State.setList_check (x : Sec) (l : List (Fin 64)) (s : State) : (s.setList x l).check = s.check := rfl
@[simp] theorem State.setList_out (x : Sec) (l : List (Fin 64)) (s : State) : (s.setList x l).out = s.out := rfl
@[simp] theorem State.setList_pockets (x : Sec) (l : List (Fin 64)) (s : State) : (s.setList x l).pockets = s.pockets := rfl
@[simp] theorem State.setList_clears (x : Sec) (l : List (Fin 64)) (s : State) : (s.setList x l).clears = s.clears := rfl
@[simp] theorem State.setList_labels (x : Sec) (l : List (Fin 64)) (s : State) : (s.setList x l).labels = s.labels := rfl
@[simp] theorem State.setList_run (x : Sec) (l : List (Fin 64)) (s : State) : (s.setList x l).run = s.run := rfl
@[simp] theorem State.setList_reports (x : Sec) (l : List (Fin 64)) (s : State) : (s.setList x l).reports = s.reports := rfl
@[simp] theorem State.setList_host (x : Sec) (l : List (Fin 64)) (s : State) : (s.setList x l).host = s.host := rfl
@[simp] theorem State.setList_clock (x : Sec) (l : List (Fin 64)) (s : State) : (s.setList x l).clock = s.clock := rfl
@[simp] theorem State.setList_choice (x : Sec) (l : List (Fin 64)) (s : State) : (s.setList x l).choice = s.choice := rfl
@[simp] theorem State.setList_pending (x : Sec) (l : List (Fin 64)) (s : State) : (s.setList x l).pending = s.pending := rfl

/-! `setTable` -/

@[simp] theorem State.setTable_pins (bank : Bank) (t : BankTable) (s : State) : (s.setTable bank t).pins = s.pins := by cases bank <;> rfl
@[simp] theorem State.setTable_pool (bank : Bank) (t : BankTable) (s : State) : (s.setTable bank t).pool = s.pool := by cases bank <;> rfl
@[simp] theorem State.setTable_secs (bank : Bank) (t : BankTable) (s : State) : (s.setTable bank t).secs = s.secs := by cases bank <;> rfl
@[simp] theorem State.setTable_cuts (bank : Bank) (t : BankTable) (s : State) : (s.setTable bank t).cuts = s.cuts := by cases bank <;> rfl
@[simp] theorem State.setTable_gauge (bank : Bank) (t : BankTable) (s : State) : (s.setTable bank t).gauge = s.gauge := by cases bank <;> rfl
@[simp] theorem State.setTable_scan (bank : Bank) (t : BankTable) (s : State) : (s.setTable bank t).scan = s.scan := by cases bank <;> rfl
@[simp] theorem State.setTable_check (bank : Bank) (t : BankTable) (s : State) : (s.setTable bank t).check = s.check := by cases bank <;> rfl
@[simp] theorem State.setTable_out (bank : Bank) (t : BankTable) (s : State) : (s.setTable bank t).out = s.out := by cases bank <;> rfl
@[simp] theorem State.setTable_pockets (bank : Bank) (t : BankTable) (s : State) : (s.setTable bank t).pockets = s.pockets := by cases bank <;> rfl
@[simp] theorem State.setTable_clears (bank : Bank) (t : BankTable) (s : State) : (s.setTable bank t).clears = s.clears := by cases bank <;> rfl
@[simp] theorem State.setTable_labels (bank : Bank) (t : BankTable) (s : State) : (s.setTable bank t).labels = s.labels := by cases bank <;> rfl
@[simp] theorem State.setTable_run (bank : Bank) (t : BankTable) (s : State) : (s.setTable bank t).run = s.run := by cases bank <;> rfl
@[simp] theorem State.setTable_reports (bank : Bank) (t : BankTable) (s : State) : (s.setTable bank t).reports = s.reports := by cases bank <;> rfl
@[simp] theorem State.setTable_host (bank : Bank) (t : BankTable) (s : State) : (s.setTable bank t).host = s.host := by cases bank <;> rfl
@[simp] theorem State.setTable_clock (bank : Bank) (t : BankTable) (s : State) : (s.setTable bank t).clock = s.clock := by cases bank <;> rfl
@[simp] theorem State.setTable_choice (bank : Bank) (t : BankTable) (s : State) : (s.setTable bank t).choice = s.choice := by cases bank <;> rfl
@[simp] theorem State.setTable_pending (bank : Bank) (t : BankTable) (s : State) : (s.setTable bank t).pending = s.pending := by cases bank <;> rfl

/-! `modPocket` -/

@[simp] theorem State.modPocket_pins (p : Fin 12) (f : Pocket → Pocket) (s : State) : (s.modPocket p f).pins = s.pins := rfl
@[simp] theorem State.modPocket_pool (p : Fin 12) (f : Pocket → Pocket) (s : State) : (s.modPocket p f).pool = s.pool := rfl
@[simp] theorem State.modPocket_secs (p : Fin 12) (f : Pocket → Pocket) (s : State) : (s.modPocket p f).secs = s.secs := rfl
@[simp] theorem State.modPocket_cuts (p : Fin 12) (f : Pocket → Pocket) (s : State) : (s.modPocket p f).cuts = s.cuts := rfl
@[simp] theorem State.modPocket_gauge (p : Fin 12) (f : Pocket → Pocket) (s : State) : (s.modPocket p f).gauge = s.gauge := rfl
@[simp] theorem State.modPocket_scan (p : Fin 12) (f : Pocket → Pocket) (s : State) : (s.modPocket p f).scan = s.scan := rfl
@[simp] theorem State.modPocket_solver (p : Fin 12) (f : Pocket → Pocket) (s : State) : (s.modPocket p f).solver = s.solver := rfl
@[simp] theorem State.modPocket_check (p : Fin 12) (f : Pocket → Pocket) (s : State) : (s.modPocket p f).check = s.check := rfl
@[simp] theorem State.modPocket_out (p : Fin 12) (f : Pocket → Pocket) (s : State) : (s.modPocket p f).out = s.out := rfl
@[simp] theorem State.modPocket_clears (p : Fin 12) (f : Pocket → Pocket) (s : State) : (s.modPocket p f).clears = s.clears := rfl
@[simp] theorem State.modPocket_labels (p : Fin 12) (f : Pocket → Pocket) (s : State) : (s.modPocket p f).labels = s.labels := rfl
@[simp] theorem State.modPocket_run (p : Fin 12) (f : Pocket → Pocket) (s : State) : (s.modPocket p f).run = s.run := rfl
@[simp] theorem State.modPocket_reports (p : Fin 12) (f : Pocket → Pocket) (s : State) : (s.modPocket p f).reports = s.reports := rfl
@[simp] theorem State.modPocket_host (p : Fin 12) (f : Pocket → Pocket) (s : State) : (s.modPocket p f).host = s.host := rfl
@[simp] theorem State.modPocket_clock (p : Fin 12) (f : Pocket → Pocket) (s : State) : (s.modPocket p f).clock = s.clock := rfl
@[simp] theorem State.modPocket_choice (p : Fin 12) (f : Pocket → Pocket) (s : State) : (s.modPocket p f).choice = s.choice := rfl
@[simp] theorem State.modPocket_pending (p : Fin 12) (f : Pocket → Pocket) (s : State) : (s.modPocket p f).pending = s.pending := rfl

/-! `modBundle` -/

@[simp] theorem State.modBundle_pins (p : Fin 12) (f : Bundle → Bundle) (s : State) : (s.modBundle p f).pins = s.pins := rfl
@[simp] theorem State.modBundle_pool (p : Fin 12) (f : Bundle → Bundle) (s : State) : (s.modBundle p f).pool = s.pool := rfl
@[simp] theorem State.modBundle_secs (p : Fin 12) (f : Bundle → Bundle) (s : State) : (s.modBundle p f).secs = s.secs := rfl
@[simp] theorem State.modBundle_cuts (p : Fin 12) (f : Bundle → Bundle) (s : State) : (s.modBundle p f).cuts = s.cuts := rfl
@[simp] theorem State.modBundle_gauge (p : Fin 12) (f : Bundle → Bundle) (s : State) : (s.modBundle p f).gauge = s.gauge := rfl
@[simp] theorem State.modBundle_scan (p : Fin 12) (f : Bundle → Bundle) (s : State) : (s.modBundle p f).scan = s.scan := rfl
@[simp] theorem State.modBundle_solver (p : Fin 12) (f : Bundle → Bundle) (s : State) : (s.modBundle p f).solver = s.solver := rfl
@[simp] theorem State.modBundle_check (p : Fin 12) (f : Bundle → Bundle) (s : State) : (s.modBundle p f).check = s.check := rfl
@[simp] theorem State.modBundle_out (p : Fin 12) (f : Bundle → Bundle) (s : State) : (s.modBundle p f).out = s.out := rfl
@[simp] theorem State.modBundle_clears (p : Fin 12) (f : Bundle → Bundle) (s : State) : (s.modBundle p f).clears = s.clears := rfl
@[simp] theorem State.modBundle_labels (p : Fin 12) (f : Bundle → Bundle) (s : State) : (s.modBundle p f).labels = s.labels := rfl
@[simp] theorem State.modBundle_run (p : Fin 12) (f : Bundle → Bundle) (s : State) : (s.modBundle p f).run = s.run := rfl
@[simp] theorem State.modBundle_reports (p : Fin 12) (f : Bundle → Bundle) (s : State) : (s.modBundle p f).reports = s.reports := rfl
@[simp] theorem State.modBundle_host (p : Fin 12) (f : Bundle → Bundle) (s : State) : (s.modBundle p f).host = s.host := rfl
@[simp] theorem State.modBundle_clock (p : Fin 12) (f : Bundle → Bundle) (s : State) : (s.modBundle p f).clock = s.clock := rfl
@[simp] theorem State.modBundle_choice (p : Fin 12) (f : Bundle → Bundle) (s : State) : (s.modBundle p f).choice = s.choice := rfl
@[simp] theorem State.modBundle_pending (p : Fin 12) (f : Bundle → Bundle) (s : State) : (s.modBundle p f).pending = s.pending := rfl

/-! `modCounters` -/

@[simp] theorem State.modCounters_pins (f : LineCounters → LineCounters) (s : State) : (s.modCounters f).pins = s.pins := rfl
@[simp] theorem State.modCounters_pool (f : LineCounters → LineCounters) (s : State) : (s.modCounters f).pool = s.pool := rfl
@[simp] theorem State.modCounters_secs (f : LineCounters → LineCounters) (s : State) : (s.modCounters f).secs = s.secs := rfl
@[simp] theorem State.modCounters_cuts (f : LineCounters → LineCounters) (s : State) : (s.modCounters f).cuts = s.cuts := rfl
@[simp] theorem State.modCounters_gauge (f : LineCounters → LineCounters) (s : State) : (s.modCounters f).gauge = s.gauge := rfl
@[simp] theorem State.modCounters_scan (f : LineCounters → LineCounters) (s : State) : (s.modCounters f).scan = s.scan := rfl
@[simp] theorem State.modCounters_solver (f : LineCounters → LineCounters) (s : State) : (s.modCounters f).solver = s.solver := rfl
@[simp] theorem State.modCounters_check (f : LineCounters → LineCounters) (s : State) : (s.modCounters f).check = s.check := rfl
@[simp] theorem State.modCounters_out (f : LineCounters → LineCounters) (s : State) : (s.modCounters f).out = s.out := rfl
@[simp] theorem State.modCounters_pockets (f : LineCounters → LineCounters) (s : State) : (s.modCounters f).pockets = s.pockets := rfl
@[simp] theorem State.modCounters_clears (f : LineCounters → LineCounters) (s : State) : (s.modCounters f).clears = s.clears := rfl
@[simp] theorem State.modCounters_labels (f : LineCounters → LineCounters) (s : State) : (s.modCounters f).labels = s.labels := rfl
@[simp] theorem State.modCounters_reports (f : LineCounters → LineCounters) (s : State) : (s.modCounters f).reports = s.reports := rfl
@[simp] theorem State.modCounters_host (f : LineCounters → LineCounters) (s : State) : (s.modCounters f).host = s.host := rfl
@[simp] theorem State.modCounters_clock (f : LineCounters → LineCounters) (s : State) : (s.modCounters f).clock = s.clock := rfl
@[simp] theorem State.modCounters_choice (f : LineCounters → LineCounters) (s : State) : (s.modCounters f).choice = s.choice := rfl
@[simp] theorem State.modCounters_pending (f : LineCounters → LineCounters) (s : State) : (s.modCounters f).pending = s.pending := rfl

/-! `modCuts` -/

@[simp] theorem State.modCuts_pins (f : CutUnit → CutUnit) (s : State) : (s.modCuts f).pins = s.pins := rfl
@[simp] theorem State.modCuts_pool (f : CutUnit → CutUnit) (s : State) : (s.modCuts f).pool = s.pool := rfl
@[simp] theorem State.modCuts_secs (f : CutUnit → CutUnit) (s : State) : (s.modCuts f).secs = s.secs := rfl
@[simp] theorem State.modCuts_gauge (f : CutUnit → CutUnit) (s : State) : (s.modCuts f).gauge = s.gauge := rfl
@[simp] theorem State.modCuts_scan (f : CutUnit → CutUnit) (s : State) : (s.modCuts f).scan = s.scan := rfl
@[simp] theorem State.modCuts_solver (f : CutUnit → CutUnit) (s : State) : (s.modCuts f).solver = s.solver := rfl
@[simp] theorem State.modCuts_check (f : CutUnit → CutUnit) (s : State) : (s.modCuts f).check = s.check := rfl
@[simp] theorem State.modCuts_out (f : CutUnit → CutUnit) (s : State) : (s.modCuts f).out = s.out := rfl
@[simp] theorem State.modCuts_pockets (f : CutUnit → CutUnit) (s : State) : (s.modCuts f).pockets = s.pockets := rfl
@[simp] theorem State.modCuts_clears (f : CutUnit → CutUnit) (s : State) : (s.modCuts f).clears = s.clears := rfl
@[simp] theorem State.modCuts_labels (f : CutUnit → CutUnit) (s : State) : (s.modCuts f).labels = s.labels := rfl
@[simp] theorem State.modCuts_run (f : CutUnit → CutUnit) (s : State) : (s.modCuts f).run = s.run := rfl
@[simp] theorem State.modCuts_reports (f : CutUnit → CutUnit) (s : State) : (s.modCuts f).reports = s.reports := rfl
@[simp] theorem State.modCuts_host (f : CutUnit → CutUnit) (s : State) : (s.modCuts f).host = s.host := rfl
@[simp] theorem State.modCuts_clock (f : CutUnit → CutUnit) (s : State) : (s.modCuts f).clock = s.clock := rfl
@[simp] theorem State.modCuts_choice (f : CutUnit → CutUnit) (s : State) : (s.modCuts f).choice = s.choice := rfl
@[simp] theorem State.modCuts_pending (f : CutUnit → CutUnit) (s : State) : (s.modCuts f).pending = s.pending := rfl

/-! `modLine` -/

@[simp] theorem State.modLine_pins (l : Fin 24) (f : Line → Line) (s : State) : (s.modLine l f).pins = s.pins := rfl
@[simp] theorem State.modLine_pool (l : Fin 24) (f : Line → Line) (s : State) : (s.modLine l f).pool = s.pool := rfl
@[simp] theorem State.modLine_secs (l : Fin 24) (f : Line → Line) (s : State) : (s.modLine l f).secs = s.secs := rfl
@[simp] theorem State.modLine_cuts (l : Fin 24) (f : Line → Line) (s : State) : (s.modLine l f).cuts = s.cuts := rfl
@[simp] theorem State.modLine_gauge (l : Fin 24) (f : Line → Line) (s : State) : (s.modLine l f).gauge = s.gauge := rfl
@[simp] theorem State.modLine_scan (l : Fin 24) (f : Line → Line) (s : State) : (s.modLine l f).scan = s.scan := rfl
@[simp] theorem State.modLine_solver (l : Fin 24) (f : Line → Line) (s : State) : (s.modLine l f).solver = s.solver := rfl
@[simp] theorem State.modLine_check (l : Fin 24) (f : Line → Line) (s : State) : (s.modLine l f).check = s.check := rfl
@[simp] theorem State.modLine_pockets (l : Fin 24) (f : Line → Line) (s : State) : (s.modLine l f).pockets = s.pockets := rfl
@[simp] theorem State.modLine_clears (l : Fin 24) (f : Line → Line) (s : State) : (s.modLine l f).clears = s.clears := rfl
@[simp] theorem State.modLine_labels (l : Fin 24) (f : Line → Line) (s : State) : (s.modLine l f).labels = s.labels := rfl
@[simp] theorem State.modLine_run (l : Fin 24) (f : Line → Line) (s : State) : (s.modLine l f).run = s.run := rfl
@[simp] theorem State.modLine_reports (l : Fin 24) (f : Line → Line) (s : State) : (s.modLine l f).reports = s.reports := rfl
@[simp] theorem State.modLine_host (l : Fin 24) (f : Line → Line) (s : State) : (s.modLine l f).host = s.host := rfl
@[simp] theorem State.modLine_clock (l : Fin 24) (f : Line → Line) (s : State) : (s.modLine l f).clock = s.clock := rfl
@[simp] theorem State.modLine_choice (l : Fin 24) (f : Line → Line) (s : State) : (s.modLine l f).choice = s.choice := rfl
@[simp] theorem State.modLine_pending (l : Fin 24) (f : Line → Line) (s : State) : (s.modLine l f).pending = s.pending := rfl

/-! `setPair` -/

@[simp] theorem State.setPair_pins (p : Fin 6) (q : Option Pair) (s : State) : (s.setPair p q).pins = s.pins := rfl
@[simp] theorem State.setPair_pool (p : Fin 6) (q : Option Pair) (s : State) : (s.setPair p q).pool = s.pool := rfl
@[simp] theorem State.setPair_secs (p : Fin 6) (q : Option Pair) (s : State) : (s.setPair p q).secs = s.secs := rfl
@[simp] theorem State.setPair_cuts (p : Fin 6) (q : Option Pair) (s : State) : (s.setPair p q).cuts = s.cuts := rfl
@[simp] theorem State.setPair_gauge (p : Fin 6) (q : Option Pair) (s : State) : (s.setPair p q).gauge = s.gauge := rfl
@[simp] theorem State.setPair_scan (p : Fin 6) (q : Option Pair) (s : State) : (s.setPair p q).scan = s.scan := rfl
@[simp] theorem State.setPair_solver (p : Fin 6) (q : Option Pair) (s : State) : (s.setPair p q).solver = s.solver := rfl
@[simp] theorem State.setPair_check (p : Fin 6) (q : Option Pair) (s : State) : (s.setPair p q).check = s.check := rfl
@[simp] theorem State.setPair_pockets (p : Fin 6) (q : Option Pair) (s : State) : (s.setPair p q).pockets = s.pockets := rfl
@[simp] theorem State.setPair_clears (p : Fin 6) (q : Option Pair) (s : State) : (s.setPair p q).clears = s.clears := rfl
@[simp] theorem State.setPair_labels (p : Fin 6) (q : Option Pair) (s : State) : (s.setPair p q).labels = s.labels := rfl
@[simp] theorem State.setPair_run (p : Fin 6) (q : Option Pair) (s : State) : (s.setPair p q).run = s.run := rfl
@[simp] theorem State.setPair_reports (p : Fin 6) (q : Option Pair) (s : State) : (s.setPair p q).reports = s.reports := rfl
@[simp] theorem State.setPair_host (p : Fin 6) (q : Option Pair) (s : State) : (s.setPair p q).host = s.host := rfl
@[simp] theorem State.setPair_clock (p : Fin 6) (q : Option Pair) (s : State) : (s.setPair p q).clock = s.clock := rfl
@[simp] theorem State.setPair_choice (p : Fin 6) (q : Option Pair) (s : State) : (s.setPair p q).choice = s.choice := rfl
@[simp] theorem State.setPair_pending (p : Fin 6) (q : Option Pair) (s : State) : (s.setPair p q).pending = s.pending := rfl

/-! `modLabels` -/

@[simp] theorem State.modLabels_pins (f : LabelChannel → LabelChannel) (s : State) : (s.modLabels f).pins = s.pins := rfl
@[simp] theorem State.modLabels_pool (f : LabelChannel → LabelChannel) (s : State) : (s.modLabels f).pool = s.pool := rfl
@[simp] theorem State.modLabels_secs (f : LabelChannel → LabelChannel) (s : State) : (s.modLabels f).secs = s.secs := rfl
@[simp] theorem State.modLabels_cuts (f : LabelChannel → LabelChannel) (s : State) : (s.modLabels f).cuts = s.cuts := rfl
@[simp] theorem State.modLabels_gauge (f : LabelChannel → LabelChannel) (s : State) : (s.modLabels f).gauge = s.gauge := rfl
@[simp] theorem State.modLabels_scan (f : LabelChannel → LabelChannel) (s : State) : (s.modLabels f).scan = s.scan := rfl
@[simp] theorem State.modLabels_solver (f : LabelChannel → LabelChannel) (s : State) : (s.modLabels f).solver = s.solver := rfl
@[simp] theorem State.modLabels_check (f : LabelChannel → LabelChannel) (s : State) : (s.modLabels f).check = s.check := rfl
@[simp] theorem State.modLabels_out (f : LabelChannel → LabelChannel) (s : State) : (s.modLabels f).out = s.out := rfl
@[simp] theorem State.modLabels_pockets (f : LabelChannel → LabelChannel) (s : State) : (s.modLabels f).pockets = s.pockets := rfl
@[simp] theorem State.modLabels_clears (f : LabelChannel → LabelChannel) (s : State) : (s.modLabels f).clears = s.clears := rfl
@[simp] theorem State.modLabels_run (f : LabelChannel → LabelChannel) (s : State) : (s.modLabels f).run = s.run := rfl
@[simp] theorem State.modLabels_reports (f : LabelChannel → LabelChannel) (s : State) : (s.modLabels f).reports = s.reports := rfl
@[simp] theorem State.modLabels_host (f : LabelChannel → LabelChannel) (s : State) : (s.modLabels f).host = s.host := rfl
@[simp] theorem State.modLabels_clock (f : LabelChannel → LabelChannel) (s : State) : (s.modLabels f).clock = s.clock := rfl
@[simp] theorem State.modLabels_choice (f : LabelChannel → LabelChannel) (s : State) : (s.modLabels f).choice = s.choice := rfl
@[simp] theorem State.modLabels_pending (f : LabelChannel → LabelChannel) (s : State) : (s.modLabels f).pending = s.pending := rfl

/-! `modEntry` -/

@[simp] theorem State.modEntry_pins (n : Nat) (f : LabelEntry → LabelEntry) (s : State) : (s.modEntry n f).pins = s.pins := rfl
@[simp] theorem State.modEntry_pool (n : Nat) (f : LabelEntry → LabelEntry) (s : State) : (s.modEntry n f).pool = s.pool := rfl
@[simp] theorem State.modEntry_secs (n : Nat) (f : LabelEntry → LabelEntry) (s : State) : (s.modEntry n f).secs = s.secs := rfl
@[simp] theorem State.modEntry_cuts (n : Nat) (f : LabelEntry → LabelEntry) (s : State) : (s.modEntry n f).cuts = s.cuts := rfl
@[simp] theorem State.modEntry_gauge (n : Nat) (f : LabelEntry → LabelEntry) (s : State) : (s.modEntry n f).gauge = s.gauge := rfl
@[simp] theorem State.modEntry_scan (n : Nat) (f : LabelEntry → LabelEntry) (s : State) : (s.modEntry n f).scan = s.scan := rfl
@[simp] theorem State.modEntry_solver (n : Nat) (f : LabelEntry → LabelEntry) (s : State) : (s.modEntry n f).solver = s.solver := rfl
@[simp] theorem State.modEntry_check (n : Nat) (f : LabelEntry → LabelEntry) (s : State) : (s.modEntry n f).check = s.check := rfl
@[simp] theorem State.modEntry_out (n : Nat) (f : LabelEntry → LabelEntry) (s : State) : (s.modEntry n f).out = s.out := rfl
@[simp] theorem State.modEntry_pockets (n : Nat) (f : LabelEntry → LabelEntry) (s : State) : (s.modEntry n f).pockets = s.pockets := rfl
@[simp] theorem State.modEntry_clears (n : Nat) (f : LabelEntry → LabelEntry) (s : State) : (s.modEntry n f).clears = s.clears := rfl
@[simp] theorem State.modEntry_run (n : Nat) (f : LabelEntry → LabelEntry) (s : State) : (s.modEntry n f).run = s.run := rfl
@[simp] theorem State.modEntry_reports (n : Nat) (f : LabelEntry → LabelEntry) (s : State) : (s.modEntry n f).reports = s.reports := rfl
@[simp] theorem State.modEntry_host (n : Nat) (f : LabelEntry → LabelEntry) (s : State) : (s.modEntry n f).host = s.host := rfl
@[simp] theorem State.modEntry_clock (n : Nat) (f : LabelEntry → LabelEntry) (s : State) : (s.modEntry n f).clock = s.clock := rfl
@[simp] theorem State.modEntry_choice (n : Nat) (f : LabelEntry → LabelEntry) (s : State) : (s.modEntry n f).choice = s.choice := rfl
@[simp] theorem State.modEntry_pending (n : Nat) (f : LabelEntry → LabelEntry) (s : State) : (s.modEntry n f).pending = s.pending := rfl

/-! `modSolver` -/

@[simp] theorem State.modSolver_pins (f : Solver → Solver) (s : State) : (s.modSolver f).pins = s.pins := rfl
@[simp] theorem State.modSolver_pool (f : Solver → Solver) (s : State) : (s.modSolver f).pool = s.pool := rfl
@[simp] theorem State.modSolver_secs (f : Solver → Solver) (s : State) : (s.modSolver f).secs = s.secs := rfl
@[simp] theorem State.modSolver_cuts (f : Solver → Solver) (s : State) : (s.modSolver f).cuts = s.cuts := rfl
@[simp] theorem State.modSolver_gauge (f : Solver → Solver) (s : State) : (s.modSolver f).gauge = s.gauge := rfl
@[simp] theorem State.modSolver_scan (f : Solver → Solver) (s : State) : (s.modSolver f).scan = s.scan := rfl
@[simp] theorem State.modSolver_check (f : Solver → Solver) (s : State) : (s.modSolver f).check = s.check := rfl
@[simp] theorem State.modSolver_out (f : Solver → Solver) (s : State) : (s.modSolver f).out = s.out := rfl
@[simp] theorem State.modSolver_pockets (f : Solver → Solver) (s : State) : (s.modSolver f).pockets = s.pockets := rfl
@[simp] theorem State.modSolver_clears (f : Solver → Solver) (s : State) : (s.modSolver f).clears = s.clears := rfl
@[simp] theorem State.modSolver_labels (f : Solver → Solver) (s : State) : (s.modSolver f).labels = s.labels := rfl
@[simp] theorem State.modSolver_run (f : Solver → Solver) (s : State) : (s.modSolver f).run = s.run := rfl
@[simp] theorem State.modSolver_reports (f : Solver → Solver) (s : State) : (s.modSolver f).reports = s.reports := rfl
@[simp] theorem State.modSolver_host (f : Solver → Solver) (s : State) : (s.modSolver f).host = s.host := rfl
@[simp] theorem State.modSolver_clock (f : Solver → Solver) (s : State) : (s.modSolver f).clock = s.clock := rfl
@[simp] theorem State.modSolver_choice (f : Solver → Solver) (s : State) : (s.modSolver f).choice = s.choice := rfl
@[simp] theorem State.modSolver_pending (f : Solver → Solver) (s : State) : (s.modSolver f).pending = s.pending := rfl

/-! `modCheck` -/

@[simp] theorem State.modCheck_pins (f : ProfileCheck → ProfileCheck) (s : State) : (s.modCheck f).pins = s.pins := rfl
@[simp] theorem State.modCheck_pool (f : ProfileCheck → ProfileCheck) (s : State) : (s.modCheck f).pool = s.pool := rfl
@[simp] theorem State.modCheck_secs (f : ProfileCheck → ProfileCheck) (s : State) : (s.modCheck f).secs = s.secs := rfl
@[simp] theorem State.modCheck_cuts (f : ProfileCheck → ProfileCheck) (s : State) : (s.modCheck f).cuts = s.cuts := rfl
@[simp] theorem State.modCheck_gauge (f : ProfileCheck → ProfileCheck) (s : State) : (s.modCheck f).gauge = s.gauge := rfl
@[simp] theorem State.modCheck_scan (f : ProfileCheck → ProfileCheck) (s : State) : (s.modCheck f).scan = s.scan := rfl
@[simp] theorem State.modCheck_solver (f : ProfileCheck → ProfileCheck) (s : State) : (s.modCheck f).solver = s.solver := rfl
@[simp] theorem State.modCheck_out (f : ProfileCheck → ProfileCheck) (s : State) : (s.modCheck f).out = s.out := rfl
@[simp] theorem State.modCheck_pockets (f : ProfileCheck → ProfileCheck) (s : State) : (s.modCheck f).pockets = s.pockets := rfl
@[simp] theorem State.modCheck_clears (f : ProfileCheck → ProfileCheck) (s : State) : (s.modCheck f).clears = s.clears := rfl
@[simp] theorem State.modCheck_labels (f : ProfileCheck → ProfileCheck) (s : State) : (s.modCheck f).labels = s.labels := rfl
@[simp] theorem State.modCheck_run (f : ProfileCheck → ProfileCheck) (s : State) : (s.modCheck f).run = s.run := rfl
@[simp] theorem State.modCheck_reports (f : ProfileCheck → ProfileCheck) (s : State) : (s.modCheck f).reports = s.reports := rfl
@[simp] theorem State.modCheck_host (f : ProfileCheck → ProfileCheck) (s : State) : (s.modCheck f).host = s.host := rfl
@[simp] theorem State.modCheck_clock (f : ProfileCheck → ProfileCheck) (s : State) : (s.modCheck f).clock = s.clock := rfl
@[simp] theorem State.modCheck_choice (f : ProfileCheck → ProfileCheck) (s : State) : (s.modCheck f).choice = s.choice := rfl
@[simp] theorem State.modCheck_pending (f : ProfileCheck → ProfileCheck) (s : State) : (s.modCheck f).pending = s.pending := rfl

/-! `modScan` -/

@[simp] theorem State.modScan_pins (f : ScanIntake → ScanIntake) (s : State) : (s.modScan f).pins = s.pins := rfl
@[simp] theorem State.modScan_pool (f : ScanIntake → ScanIntake) (s : State) : (s.modScan f).pool = s.pool := rfl
@[simp] theorem State.modScan_secs (f : ScanIntake → ScanIntake) (s : State) : (s.modScan f).secs = s.secs := rfl
@[simp] theorem State.modScan_cuts (f : ScanIntake → ScanIntake) (s : State) : (s.modScan f).cuts = s.cuts := rfl
@[simp] theorem State.modScan_gauge (f : ScanIntake → ScanIntake) (s : State) : (s.modScan f).gauge = s.gauge := rfl
@[simp] theorem State.modScan_solver (f : ScanIntake → ScanIntake) (s : State) : (s.modScan f).solver = s.solver := rfl
@[simp] theorem State.modScan_check (f : ScanIntake → ScanIntake) (s : State) : (s.modScan f).check = s.check := rfl
@[simp] theorem State.modScan_out (f : ScanIntake → ScanIntake) (s : State) : (s.modScan f).out = s.out := rfl
@[simp] theorem State.modScan_pockets (f : ScanIntake → ScanIntake) (s : State) : (s.modScan f).pockets = s.pockets := rfl
@[simp] theorem State.modScan_clears (f : ScanIntake → ScanIntake) (s : State) : (s.modScan f).clears = s.clears := rfl
@[simp] theorem State.modScan_labels (f : ScanIntake → ScanIntake) (s : State) : (s.modScan f).labels = s.labels := rfl
@[simp] theorem State.modScan_run (f : ScanIntake → ScanIntake) (s : State) : (s.modScan f).run = s.run := rfl
@[simp] theorem State.modScan_reports (f : ScanIntake → ScanIntake) (s : State) : (s.modScan f).reports = s.reports := rfl
@[simp] theorem State.modScan_host (f : ScanIntake → ScanIntake) (s : State) : (s.modScan f).host = s.host := rfl
@[simp] theorem State.modScan_clock (f : ScanIntake → ScanIntake) (s : State) : (s.modScan f).clock = s.clock := rfl
@[simp] theorem State.modScan_choice (f : ScanIntake → ScanIntake) (s : State) : (s.modScan f).choice = s.choice := rfl
@[simp] theorem State.modScan_pending (f : ScanIntake → ScanIntake) (s : State) : (s.modScan f).pending = s.pending := rfl

/-! `setHead` -/

@[simp] theorem State.setHead_pins (h : Head) (u : HeadUnit) (s : State) : (s.setHead h u).pins = s.pins := by cases h <;> rfl
@[simp] theorem State.setHead_pool (h : Head) (u : HeadUnit) (s : State) : (s.setHead h u).pool = s.pool := by cases h <;> rfl
@[simp] theorem State.setHead_secs (h : Head) (u : HeadUnit) (s : State) : (s.setHead h u).secs = s.secs := by cases h <;> rfl
@[simp] theorem State.setHead_cuts (h : Head) (u : HeadUnit) (s : State) : (s.setHead h u).cuts = s.cuts := by cases h <;> rfl
@[simp] theorem State.setHead_gauge (h : Head) (u : HeadUnit) (s : State) : (s.setHead h u).gauge = s.gauge := by cases h <;> rfl
@[simp] theorem State.setHead_solver (h : Head) (u : HeadUnit) (s : State) : (s.setHead h u).solver = s.solver := by cases h <;> rfl
@[simp] theorem State.setHead_check (h : Head) (u : HeadUnit) (s : State) : (s.setHead h u).check = s.check := by cases h <;> rfl
@[simp] theorem State.setHead_out (h : Head) (u : HeadUnit) (s : State) : (s.setHead h u).out = s.out := by cases h <;> rfl
@[simp] theorem State.setHead_pockets (h : Head) (u : HeadUnit) (s : State) : (s.setHead h u).pockets = s.pockets := by cases h <;> rfl
@[simp] theorem State.setHead_clears (h : Head) (u : HeadUnit) (s : State) : (s.setHead h u).clears = s.clears := by cases h <;> rfl
@[simp] theorem State.setHead_labels (h : Head) (u : HeadUnit) (s : State) : (s.setHead h u).labels = s.labels := by cases h <;> rfl
@[simp] theorem State.setHead_run (h : Head) (u : HeadUnit) (s : State) : (s.setHead h u).run = s.run := by cases h <;> rfl
@[simp] theorem State.setHead_reports (h : Head) (u : HeadUnit) (s : State) : (s.setHead h u).reports = s.reports := by cases h <;> rfl
@[simp] theorem State.setHead_host (h : Head) (u : HeadUnit) (s : State) : (s.setHead h u).host = s.host := by cases h <;> rfl
@[simp] theorem State.setHead_clock (h : Head) (u : HeadUnit) (s : State) : (s.setHead h u).clock = s.clock := by cases h <;> rfl
@[simp] theorem State.setHead_choice (h : Head) (u : HeadUnit) (s : State) : (s.setHead h u).choice = s.choice := by cases h <;> rfl
@[simp] theorem State.setHead_pending (h : Head) (u : HeadUnit) (s : State) : (s.setHead h u).pending = s.pending := by cases h <;> rfl

/-! `modRun` -/

@[simp] theorem State.modRun_pins (f : RunControl → RunControl) (s : State) : (s.modRun f).pins = s.pins := rfl
@[simp] theorem State.modRun_pool (f : RunControl → RunControl) (s : State) : (s.modRun f).pool = s.pool := rfl
@[simp] theorem State.modRun_secs (f : RunControl → RunControl) (s : State) : (s.modRun f).secs = s.secs := rfl
@[simp] theorem State.modRun_cuts (f : RunControl → RunControl) (s : State) : (s.modRun f).cuts = s.cuts := rfl
@[simp] theorem State.modRun_gauge (f : RunControl → RunControl) (s : State) : (s.modRun f).gauge = s.gauge := rfl
@[simp] theorem State.modRun_scan (f : RunControl → RunControl) (s : State) : (s.modRun f).scan = s.scan := rfl
@[simp] theorem State.modRun_solver (f : RunControl → RunControl) (s : State) : (s.modRun f).solver = s.solver := rfl
@[simp] theorem State.modRun_check (f : RunControl → RunControl) (s : State) : (s.modRun f).check = s.check := rfl
@[simp] theorem State.modRun_out (f : RunControl → RunControl) (s : State) : (s.modRun f).out = s.out := rfl
@[simp] theorem State.modRun_pockets (f : RunControl → RunControl) (s : State) : (s.modRun f).pockets = s.pockets := rfl
@[simp] theorem State.modRun_clears (f : RunControl → RunControl) (s : State) : (s.modRun f).clears = s.clears := rfl
@[simp] theorem State.modRun_labels (f : RunControl → RunControl) (s : State) : (s.modRun f).labels = s.labels := rfl
@[simp] theorem State.modRun_reports (f : RunControl → RunControl) (s : State) : (s.modRun f).reports = s.reports := rfl
@[simp] theorem State.modRun_host (f : RunControl → RunControl) (s : State) : (s.modRun f).host = s.host := rfl
@[simp] theorem State.modRun_clock (f : RunControl → RunControl) (s : State) : (s.modRun f).clock = s.clock := rfl
@[simp] theorem State.modRun_choice (f : RunControl → RunControl) (s : State) : (s.modRun f).choice = s.choice := rfl
@[simp] theorem State.modRun_pending (f : RunControl → RunControl) (s : State) : (s.modRun f).pending = s.pending := rfl

/-! `modHost` -/

@[simp] theorem State.modHost_pins (f : HostLink → HostLink) (s : State) : (s.modHost f).pins = s.pins := rfl
@[simp] theorem State.modHost_pool (f : HostLink → HostLink) (s : State) : (s.modHost f).pool = s.pool := rfl
@[simp] theorem State.modHost_secs (f : HostLink → HostLink) (s : State) : (s.modHost f).secs = s.secs := rfl
@[simp] theorem State.modHost_cuts (f : HostLink → HostLink) (s : State) : (s.modHost f).cuts = s.cuts := rfl
@[simp] theorem State.modHost_gauge (f : HostLink → HostLink) (s : State) : (s.modHost f).gauge = s.gauge := rfl
@[simp] theorem State.modHost_scan (f : HostLink → HostLink) (s : State) : (s.modHost f).scan = s.scan := rfl
@[simp] theorem State.modHost_solver (f : HostLink → HostLink) (s : State) : (s.modHost f).solver = s.solver := rfl
@[simp] theorem State.modHost_check (f : HostLink → HostLink) (s : State) : (s.modHost f).check = s.check := rfl
@[simp] theorem State.modHost_out (f : HostLink → HostLink) (s : State) : (s.modHost f).out = s.out := rfl
@[simp] theorem State.modHost_pockets (f : HostLink → HostLink) (s : State) : (s.modHost f).pockets = s.pockets := rfl
@[simp] theorem State.modHost_clears (f : HostLink → HostLink) (s : State) : (s.modHost f).clears = s.clears := rfl
@[simp] theorem State.modHost_labels (f : HostLink → HostLink) (s : State) : (s.modHost f).labels = s.labels := rfl
@[simp] theorem State.modHost_run (f : HostLink → HostLink) (s : State) : (s.modHost f).run = s.run := rfl
@[simp] theorem State.modHost_reports (f : HostLink → HostLink) (s : State) : (s.modHost f).reports = s.reports := rfl
@[simp] theorem State.modHost_clock (f : HostLink → HostLink) (s : State) : (s.modHost f).clock = s.clock := rfl
@[simp] theorem State.modHost_choice (f : HostLink → HostLink) (s : State) : (s.modHost f).choice = s.choice := rfl
@[simp] theorem State.modHost_pending (f : HostLink → HostLink) (s : State) : (s.modHost f).pending = s.pending := rfl

/-! `setClear` -/

@[simp] theorem State.setClear_pins (p : Fin 12) (f : ClearFilter) (s : State) : (s.setClear p f).pins = s.pins := rfl
@[simp] theorem State.setClear_pool (p : Fin 12) (f : ClearFilter) (s : State) : (s.setClear p f).pool = s.pool := rfl
@[simp] theorem State.setClear_secs (p : Fin 12) (f : ClearFilter) (s : State) : (s.setClear p f).secs = s.secs := rfl
@[simp] theorem State.setClear_cuts (p : Fin 12) (f : ClearFilter) (s : State) : (s.setClear p f).cuts = s.cuts := rfl
@[simp] theorem State.setClear_gauge (p : Fin 12) (f : ClearFilter) (s : State) : (s.setClear p f).gauge = s.gauge := rfl
@[simp] theorem State.setClear_scan (p : Fin 12) (f : ClearFilter) (s : State) : (s.setClear p f).scan = s.scan := rfl
@[simp] theorem State.setClear_solver (p : Fin 12) (f : ClearFilter) (s : State) : (s.setClear p f).solver = s.solver := rfl
@[simp] theorem State.setClear_check (p : Fin 12) (f : ClearFilter) (s : State) : (s.setClear p f).check = s.check := rfl
@[simp] theorem State.setClear_out (p : Fin 12) (f : ClearFilter) (s : State) : (s.setClear p f).out = s.out := rfl
@[simp] theorem State.setClear_pockets (p : Fin 12) (f : ClearFilter) (s : State) : (s.setClear p f).pockets = s.pockets := rfl
@[simp] theorem State.setClear_labels (p : Fin 12) (f : ClearFilter) (s : State) : (s.setClear p f).labels = s.labels := rfl
@[simp] theorem State.setClear_run (p : Fin 12) (f : ClearFilter) (s : State) : (s.setClear p f).run = s.run := rfl
@[simp] theorem State.setClear_reports (p : Fin 12) (f : ClearFilter) (s : State) : (s.setClear p f).reports = s.reports := rfl
@[simp] theorem State.setClear_host (p : Fin 12) (f : ClearFilter) (s : State) : (s.setClear p f).host = s.host := rfl
@[simp] theorem State.setClear_clock (p : Fin 12) (f : ClearFilter) (s : State) : (s.setClear p f).clock = s.clock := rfl
@[simp] theorem State.setClear_choice (p : Fin 12) (f : ClearFilter) (s : State) : (s.setClear p f).choice = s.choice := rfl
@[simp] theorem State.setClear_pending (p : Fin 12) (f : ClearFilter) (s : State) : (s.setClear p f).pending = s.pending := rfl

/-! `clockTo` -/

@[simp] theorem State.clockTo_pins (t : Nat) (s : State) : (s.clockTo t).pins = s.pins := rfl
@[simp] theorem State.clockTo_pool (t : Nat) (s : State) : (s.clockTo t).pool = s.pool := rfl
@[simp] theorem State.clockTo_secs (t : Nat) (s : State) : (s.clockTo t).secs = s.secs := rfl
@[simp] theorem State.clockTo_cuts (t : Nat) (s : State) : (s.clockTo t).cuts = s.cuts := rfl
@[simp] theorem State.clockTo_gauge (t : Nat) (s : State) : (s.clockTo t).gauge = s.gauge := rfl
@[simp] theorem State.clockTo_scan (t : Nat) (s : State) : (s.clockTo t).scan = s.scan := rfl
@[simp] theorem State.clockTo_solver (t : Nat) (s : State) : (s.clockTo t).solver = s.solver := rfl
@[simp] theorem State.clockTo_check (t : Nat) (s : State) : (s.clockTo t).check = s.check := rfl
@[simp] theorem State.clockTo_out (t : Nat) (s : State) : (s.clockTo t).out = s.out := rfl
@[simp] theorem State.clockTo_pockets (t : Nat) (s : State) : (s.clockTo t).pockets = s.pockets := rfl
@[simp] theorem State.clockTo_clears (t : Nat) (s : State) : (s.clockTo t).clears = s.clears := rfl
@[simp] theorem State.clockTo_labels (t : Nat) (s : State) : (s.clockTo t).labels = s.labels := rfl
@[simp] theorem State.clockTo_run (t : Nat) (s : State) : (s.clockTo t).run = s.run := rfl
@[simp] theorem State.clockTo_reports (t : Nat) (s : State) : (s.clockTo t).reports = s.reports := rfl
@[simp] theorem State.clockTo_host (t : Nat) (s : State) : (s.clockTo t).host = s.host := rfl
@[simp] theorem State.clockTo_choice (t : Nat) (s : State) : (s.clockTo t).choice = s.choice := rfl
@[simp] theorem State.clockTo_pending (t : Nat) (s : State) : (s.clockTo t).pending = s.pending := rfl

/-! `enqueueReport` -/

@[simp] theorem State.enqueueReport_pins (r : Report) (s : State) : (s.enqueueReport r).pins = s.pins := rfl
@[simp] theorem State.enqueueReport_pool (r : Report) (s : State) : (s.enqueueReport r).pool = s.pool := rfl
@[simp] theorem State.enqueueReport_secs (r : Report) (s : State) : (s.enqueueReport r).secs = s.secs := rfl
@[simp] theorem State.enqueueReport_cuts (r : Report) (s : State) : (s.enqueueReport r).cuts = s.cuts := rfl
@[simp] theorem State.enqueueReport_gauge (r : Report) (s : State) : (s.enqueueReport r).gauge = s.gauge := rfl
@[simp] theorem State.enqueueReport_scan (r : Report) (s : State) : (s.enqueueReport r).scan = s.scan := rfl
@[simp] theorem State.enqueueReport_solver (r : Report) (s : State) : (s.enqueueReport r).solver = s.solver := rfl
@[simp] theorem State.enqueueReport_check (r : Report) (s : State) : (s.enqueueReport r).check = s.check := rfl
@[simp] theorem State.enqueueReport_out (r : Report) (s : State) : (s.enqueueReport r).out = s.out := rfl
@[simp] theorem State.enqueueReport_pockets (r : Report) (s : State) : (s.enqueueReport r).pockets = s.pockets := rfl
@[simp] theorem State.enqueueReport_clears (r : Report) (s : State) : (s.enqueueReport r).clears = s.clears := rfl
@[simp] theorem State.enqueueReport_labels (r : Report) (s : State) : (s.enqueueReport r).labels = s.labels := rfl
@[simp] theorem State.enqueueReport_run (r : Report) (s : State) : (s.enqueueReport r).run = s.run := rfl
@[simp] theorem State.enqueueReport_host (r : Report) (s : State) : (s.enqueueReport r).host = s.host := rfl
@[simp] theorem State.enqueueReport_clock (r : Report) (s : State) : (s.enqueueReport r).clock = s.clock := rfl
@[simp] theorem State.enqueueReport_choice (r : Report) (s : State) : (s.enqueueReport r).choice = s.choice := rfl
@[simp] theorem State.enqueueReport_pending (r : Report) (s : State) : (s.enqueueReport r).pending = s.pending := rfl

/-! `togglePhase` -/

@[simp] theorem State.togglePhase_pool (x : Sec) (ph : Phase) (s : State) : (s.togglePhase x ph).pool = s.pool := by cases ph <;> rfl
@[simp] theorem State.togglePhase_secs (x : Sec) (ph : Phase) (s : State) : (s.togglePhase x ph).secs = s.secs := by cases ph <;> rfl
@[simp] theorem State.togglePhase_cuts (x : Sec) (ph : Phase) (s : State) : (s.togglePhase x ph).cuts = s.cuts := by cases ph <;> rfl
@[simp] theorem State.togglePhase_gauge (x : Sec) (ph : Phase) (s : State) : (s.togglePhase x ph).gauge = s.gauge := by cases ph <;> rfl
@[simp] theorem State.togglePhase_scan (x : Sec) (ph : Phase) (s : State) : (s.togglePhase x ph).scan = s.scan := by cases ph <;> rfl
@[simp] theorem State.togglePhase_solver (x : Sec) (ph : Phase) (s : State) : (s.togglePhase x ph).solver = s.solver := by cases ph <;> rfl
@[simp] theorem State.togglePhase_check (x : Sec) (ph : Phase) (s : State) : (s.togglePhase x ph).check = s.check := by cases ph <;> rfl
@[simp] theorem State.togglePhase_out (x : Sec) (ph : Phase) (s : State) : (s.togglePhase x ph).out = s.out := by cases ph <;> rfl
@[simp] theorem State.togglePhase_pockets (x : Sec) (ph : Phase) (s : State) : (s.togglePhase x ph).pockets = s.pockets := by cases ph <;> rfl
@[simp] theorem State.togglePhase_clears (x : Sec) (ph : Phase) (s : State) : (s.togglePhase x ph).clears = s.clears := by cases ph <;> rfl
@[simp] theorem State.togglePhase_labels (x : Sec) (ph : Phase) (s : State) : (s.togglePhase x ph).labels = s.labels := by cases ph <;> rfl
@[simp] theorem State.togglePhase_run (x : Sec) (ph : Phase) (s : State) : (s.togglePhase x ph).run = s.run := by cases ph <;> rfl
@[simp] theorem State.togglePhase_reports (x : Sec) (ph : Phase) (s : State) : (s.togglePhase x ph).reports = s.reports := by cases ph <;> rfl
@[simp] theorem State.togglePhase_host (x : Sec) (ph : Phase) (s : State) : (s.togglePhase x ph).host = s.host := by cases ph <;> rfl
@[simp] theorem State.togglePhase_clock (x : Sec) (ph : Phase) (s : State) : (s.togglePhase x ph).clock = s.clock := by cases ph <;> rfl
@[simp] theorem State.togglePhase_choice (x : Sec) (ph : Phase) (s : State) : (s.togglePhase x ph).choice = s.choice := by cases ph <;> rfl
@[simp] theorem State.togglePhase_pending (x : Sec) (ph : Phase) (s : State) : (s.togglePhase x ph).pending = s.pending := by cases ph <;> rfl

/-! `tick` -/

@[simp] theorem State.tick_pins (s : State) : (s.tick).pins = s.pins := rfl
@[simp] theorem State.tick_pool (s : State) : (s.tick).pool = s.pool := rfl
@[simp] theorem State.tick_secs (s : State) : (s.tick).secs = s.secs := rfl
@[simp] theorem State.tick_cuts (s : State) : (s.tick).cuts = s.cuts := rfl
@[simp] theorem State.tick_gauge (s : State) : (s.tick).gauge = s.gauge := rfl
@[simp] theorem State.tick_scan (s : State) : (s.tick).scan = s.scan := rfl
@[simp] theorem State.tick_solver (s : State) : (s.tick).solver = s.solver := rfl
@[simp] theorem State.tick_check (s : State) : (s.tick).check = s.check := rfl
@[simp] theorem State.tick_out (s : State) : (s.tick).out = s.out := rfl
@[simp] theorem State.tick_pockets (s : State) : (s.tick).pockets = s.pockets := rfl
@[simp] theorem State.tick_clears (s : State) : (s.tick).clears = s.clears := rfl
@[simp] theorem State.tick_labels (s : State) : (s.tick).labels = s.labels := rfl
@[simp] theorem State.tick_run (s : State) : (s.tick).run = s.run := rfl
@[simp] theorem State.tick_reports (s : State) : (s.tick).reports = s.reports := rfl
@[simp] theorem State.tick_host (s : State) : (s.tick).host = s.host := rfl
@[simp] theorem State.tick_choice (s : State) : (s.tick).choice = s.choice := rfl
@[simp] theorem State.tick_pending (s : State) : (s.tick).pending = s.pending := rfl

/-! `arrived` -/

@[simp] theorem State.arrived_pins (f : Frame) (s : State) : (s.arrived f).pins = s.pins := rfl
@[simp] theorem State.arrived_pool (f : Frame) (s : State) : (s.arrived f).pool = s.pool := rfl
@[simp] theorem State.arrived_secs (f : Frame) (s : State) : (s.arrived f).secs = s.secs := rfl
@[simp] theorem State.arrived_cuts (f : Frame) (s : State) : (s.arrived f).cuts = s.cuts := rfl
@[simp] theorem State.arrived_gauge (f : Frame) (s : State) : (s.arrived f).gauge = s.gauge := rfl
@[simp] theorem State.arrived_scan (f : Frame) (s : State) : (s.arrived f).scan = s.scan := rfl
@[simp] theorem State.arrived_solver (f : Frame) (s : State) : (s.arrived f).solver = s.solver := rfl
@[simp] theorem State.arrived_check (f : Frame) (s : State) : (s.arrived f).check = s.check := rfl
@[simp] theorem State.arrived_out (f : Frame) (s : State) : (s.arrived f).out = s.out := rfl
@[simp] theorem State.arrived_pockets (f : Frame) (s : State) : (s.arrived f).pockets = s.pockets := rfl
@[simp] theorem State.arrived_clears (f : Frame) (s : State) : (s.arrived f).clears = s.clears := rfl
@[simp] theorem State.arrived_labels (f : Frame) (s : State) : (s.arrived f).labels = s.labels := rfl
@[simp] theorem State.arrived_run (f : Frame) (s : State) : (s.arrived f).run = s.run := rfl
@[simp] theorem State.arrived_reports (f : Frame) (s : State) : (s.arrived f).reports = s.reports := rfl
@[simp] theorem State.arrived_clock (f : Frame) (s : State) : (s.arrived f).clock = s.clock := rfl
@[simp] theorem State.arrived_choice (f : Frame) (s : State) : (s.arrived f).choice = s.choice := rfl
@[simp] theorem State.arrived_pending (f : Frame) (s : State) : (s.arrived f).pending = s.pending := rfl

/-! Reads after the arrival of a request -/

@[simp] theorem State.arrived_tx (f : Frame) (s : State) : (s.arrived f).host.tx = s.host.tx := rfl
@[simp] theorem State.arrived_rate (f : Frame) (s : State) : (s.arrived f).host.rate = s.host.rate := rfl
@[simp] theorem State.arrived_requests (f : Frame) (s : State) : (s.arrived f).host.requests = [f] := rfl
@[simp] theorem State.arrived_sec (f : Frame) (x : Sec) (s : State) : (s.arrived f).sec x = s.sec x := rfl
@[simp] theorem State.arrived_record (f : Frame) (i : Fin 64) (s : State) : (s.arrived f).record i = s.record i := rfl
@[simp] theorem State.arrived_list (f : Frame) (x : Sec) (s : State) : (s.arrived f).list x = s.list x := rfl
@[simp] theorem State.arrived_pocket (f : Frame) (p : Fin 12) (s : State) : (s.arrived f).pocket p = s.pocket p := rfl
@[simp] theorem State.arrived_table (f : Frame) (k : Bank) (s : State) : (s.arrived f).table k = s.table k := by
  cases k <;> rfl
@[simp] theorem State.arrived_line (f : Frame) (l : Fin 24) (s : State) : (s.arrived f).line l = s.line l := rfl
@[simp] theorem State.arrived_pair (f : Frame) (p : Fin 6) (s : State) : (s.arrived f).pair p = s.pair p := rfl
@[simp] theorem State.arrived_pairOf (f : Frame) (l : Fin 24) (s : State) : (s.arrived f).pairOf l = s.pairOf l := rfl
@[simp] theorem State.arrived_running (f : Frame) (s : State) : (s.arrived f).running = s.running := rfl
@[simp] theorem State.arrived_drained (f : Frame) (s : State) : (s.arrived f).drained = s.drained := rfl
@[simp] theorem State.arrived_unsolved (f : Frame) (k : Bank) (s : State) : (s.arrived f).unsolved k = s.unsolved k := rfl
@[simp] theorem State.arrived_findTag (f : Frame) (n : Nat) (s : State) : (s.arrived f).findTag n = s.findTag n := rfl
@[simp] theorem State.arrived_labelEntry (f : Frame) (n : Nat) (s : State) :
    (s.arrived f).labelEntry n = s.labelEntry n := rfl
@[simp] theorem State.arrived_firstQueued (f : Frame) (s : State) : (s.arrived f).firstQueued = s.firstQueued := rfl
@[simp] theorem State.arrived_waiting (f : Frame) (p : Fin 12) (s : State) : (s.arrived f).waiting p = s.waiting p := rfl
@[simp] theorem State.arrived_pendingKicks (f : Frame) (p : Fin 12) (s : State) :
    (s.arrived f).pendingKicks p = s.pendingKicks p := rfl

/-! Reads after writes -/

@[simp] theorem State.sec_setSec (x : Sec) (u : SectionUnit) (s : State) : (s.setSec x u).sec x = u := by
  cases x <;> simp [State.sec, State.setSec]

@[simp] theorem State.sec_setSec_of_ne (x y : Sec) (u : SectionUnit) (s : State) (h : y ≠ x) :
    (s.setSec x u).sec y = s.sec y := by
  cases x <;> cases y <;> simp_all [State.sec, State.setSec]

@[simp] theorem State.sec_modSec (x : Sec) (f : SectionUnit → SectionUnit) (s : State) :
    (s.modSec x f).sec x = f (s.sec x) := by
  simp [State.modSec]

@[simp] theorem State.sec_modSec_of_ne (x y : Sec) (f : SectionUnit → SectionUnit) (s : State) (h : y ≠ x) :
    (s.modSec x f).sec y = s.sec y := by
  simp [State.modSec, h]

@[simp] theorem State.sec_modSecs (x : Sec) (f : SectionUnit → SectionUnit) (s : State) :
    (s.modSecs f).sec x = f (s.sec x) := by
  simp [State.sec, State.modSecs]

@[simp] theorem State.record_setRecord (i : Fin 64) (r : Record) (s : State) : (s.setRecord i r).record i = r := by
  simp [State.record, State.setRecord]

@[simp] theorem State.record_setRecord_of_ne (i j : Fin 64) (r : Record) (s : State) (h : j ≠ i) :
    (s.setRecord i r).record j = s.record j := by
  have hv : i.val ≠ j.val := fun e => h (Fin.ext e.symm)
  simp [State.record, State.setRecord, hv]

theorem State.record_writeRecord (i : Fin 64) (f : Record → Record) (s : State) (h : s.live i = true) :
    (s.writeRecord i f).record i = f (s.record i) := by
  simp [State.writeRecord, h]

@[simp] theorem State.record_writeRecord_of_ne (i j : Fin 64) (f : Record → Record) (s : State) (h : j ≠ i) :
    (s.writeRecord i f).record j = s.record j := by
  unfold State.writeRecord; split <;> simp [h]

/-- A blank record takes no write (R1). -/
theorem State.writeRecord_blank (i : Fin 64) (f : Record → Record) (s : State) (h : s.live i = false) :
    s.writeRecord i f = s := by
  simp [State.writeRecord, h]

@[simp] theorem State.pocket_modPocket (p : Fin 12) (f : Pocket → Pocket) (s : State) :
    (s.modPocket p f).pocket p = f (s.pocket p) := by
  simp [State.pocket, State.modPocket]

@[simp] theorem State.pocket_modPocket_of_ne (p q : Fin 12) (f : Pocket → Pocket) (s : State) (h : q ≠ p) :
    (s.modPocket p f).pocket q = s.pocket q := by
  have hv : p.val ≠ q.val := fun e => h (Fin.ext e.symm)
  simp [State.pocket, State.modPocket, hv]

@[simp] theorem State.line_modLine (l : Fin 24) (f : Line → Line) (s : State) :
    (s.modLine l f).line l = f (s.line l) := by
  simp [State.line, State.modLine]

@[simp] theorem State.line_modLine_of_ne (l k : Fin 24) (f : Line → Line) (s : State) (h : k ≠ l) :
    (s.modLine l f).line k = s.line k := by
  have hv : l.val ≠ k.val := fun e => h (Fin.ext e.symm)
  simp [State.line, State.modLine, hv]

@[simp] theorem State.pair_setPair (p : Fin 6) (q : Option Pair) (s : State) : (s.setPair p q).pair p = q := by
  simp [State.pair, State.setPair]

@[simp] theorem State.pair_setPair_of_ne (p k : Fin 6) (q : Option Pair) (s : State) (h : k ≠ p) :
    (s.setPair p q).pair k = s.pair k := by
  have hv : p.val ≠ k.val := fun e => h (Fin.ext e.symm)
  simp [State.pair, State.setPair, hv]

@[simp] theorem State.table_setTable (k : Bank) (t : BankTable) (s : State) : (s.setTable k t).table k = t := by
  cases k <;> rfl

@[simp] theorem State.table_setTable_other (k : Bank) (t : BankTable) (s : State) :
    (s.setTable k t).table k.other = s.table k.other := by
  cases k <;> rfl

end Sys2Proof.Machine
end

