-- ==== Sys2Proof/Laws/Calm.lean ====
section
/-! SUPPORT. What every shared operation of the model keeps: the queue of commands, the request queue, the bounds of
the other queues, the guard of the pairs, and the partition of the records; and the primitive updates that keep it. -/

namespace Sys2Proof.Machine

open Sys2Proof.Config

/-- `t` comes from `s` by shared operations. -/
structure State.Calm (s t : State) : Prop where
  pending   : t.pending = s.pending
  requests  : t.host.requests = s.host.requests
  reports   : s.reports.queue.length ≤ nReports → t.reports.queue.length ≤ nReports
  starts    : s.scan.starts.length ≤ nScanStarts → t.scan.starts.length ≤ nScanStarts
  intake    : s.scan.queue.length ≤ nIntake → t.scan.queue.length ≤ nIntake
  labels    : s.labels.queue.length ≤ nLabels → t.labels.queue.length ≤ nLabels
  schedules : (∀ x : Sec, (s.sec x).schedule.length ≤ nSchedule) → ∀ x : Sec, (t.sec x).schedule.length ≤ nSchedule
  pairs     : s.PairsGuarded → t.PairsGuarded
  lists     : s.pool.Partitioned → t.pool.Partitioned
  /-- A frame being sent on the host link goes on. -/
  sending   : s.host.tx ≠ .idle → t.host.tx = s.host.tx

theorem length_filter_keeps {α : Type} {f : α → Bool} {l : List α} {n : Nat} (k : l.length ≤ n) :
    (l.filter f).length ≤ n :=
  (List.length_filter_le f l).trans k

theorem length_erase_keeps {x : Entry} {l : List Entry} {n : Nat} (k : l.length ≤ n) : (l.erase x).length ≤ n :=
  List.erase_sublist.length_le.trans k

namespace State

variable {s t u : State}

theorem Calm.rfl' : s.Calm s :=
  ⟨rfl, rfl, id, id, id, id, id, id, id, fun _ => rfl⟩

theorem Calm.trans (h : s.Calm t) (k : t.Calm u) : s.Calm u where
  pending := k.pending.trans h.pending
  requests := k.requests.trans h.requests
  reports := k.reports ∘ h.reports
  starts := k.starts ∘ h.starts
  intake := k.intake ∘ h.intake
  labels := k.labels ∘ h.labels
  schedules := k.schedules ∘ h.schedules
  pairs := k.pairs ∘ h.pairs
  lists := k.lists ∘ h.lists
  sending := fun e => (k.sending (h.sending e ▸ e)).trans (h.sending e)

/-- The bounds survive, the request queue being bounded. -/
theorem Calm.bounded (h : s.Calm t) (b : s.Bounded) : t.Bounded where
  reports := h.reports b.reports
  requests := h.requests ▸ b.requests
  starts := h.starts b.starts
  intake := h.intake b.intake
  labels := h.labels b.labels
  schedules := h.schedules b.schedules

/-- An update of nothing that `Calm` looks at. -/
theorem Calm.same (h : s.Calm t) (pending : u.pending = t.pending := by rfl)
    (requests : u.host.requests = t.host.requests := by rfl)
    (reports : u.reports.queue.length = t.reports.queue.length := by rfl)
    (starts : u.scan.starts = t.scan.starts := by rfl)
    (intake : u.scan.queue = t.scan.queue := by rfl)
    (labels : u.labels.queue.length = t.labels.queue.length := by rfl)
    (schedules : ∀ x, (u.sec x).schedule = (t.sec x).schedule := by intro _; rfl)
    (pairs : u.out.pairs = t.out.pairs := by rfl)
    (lists : u.pool = t.pool := by rfl)
    (sending : u.host.tx = t.host.tx := by rfl) : s.Calm u :=
  h.trans
    { pending := pending
      requests := requests
      reports := fun k => reports ▸ k
      starts := fun k => starts ▸ k
      intake := fun k => intake ▸ k
      labels := fun k => labels ▸ k
      schedules := fun k x => by rw [schedules x]; exact k x
      pairs := fun k p q hq => k p q (by rw [← hq]; simp [State.pair, pairs])
      lists := fun k => lists ▸ k
      sending := fun _ => sending }

/-! ### Updates of one component -/

theorem modCounters_calm {f : LineCounters → LineCounters} (h : s.Calm t) : s.Calm (t.modCounters f) := h.same
theorem modRun_calm {f : RunControl → RunControl} (h : s.Calm t) : s.Calm (t.modRun f) := h.same
theorem modCuts_calm {f : CutUnit → CutUnit} (h : s.Calm t) : s.Calm (t.modCuts f) := h.same
theorem modPocket_calm {p : Fin 12} {f : Pocket → Pocket} (h : s.Calm t) : s.Calm (t.modPocket p f) := h.same
theorem modBundle_calm {p : Fin 12} {f : Bundle → Bundle} (h : s.Calm t) : s.Calm (t.modBundle p f) := h.same
theorem modLine_calm {l : Fin 24} {f : Line → Line} (h : s.Calm t) : s.Calm (t.modLine l f) := h.same
theorem modSolver_calm {f : Solver → Solver} (h : s.Calm t) : s.Calm (t.modSolver f) := h.same
theorem modCheck_calm {f : ProfileCheck → ProfileCheck} (h : s.Calm t) : s.Calm (t.modCheck f) := h.same
theorem setClear_calm {p : Fin 12} {f : ClearFilter} (h : s.Calm t) : s.Calm (t.setClear p f) := h.same
theorem clockTo_calm {n : Nat} (h : s.Calm t) : s.Calm (t.clockTo n) := h.same
theorem startSaw_calm (h : s.Calm t) : s.Calm t.startSaw := h.same
theorem togglePhase_calm {x : Sec} {p : Phase} (h : s.Calm t) : s.Calm (t.togglePhase x p) := by
  cases p <;> exact h.same

theorem setTable_calm {k : Bank} {b : BankTable} (h : s.Calm t) : s.Calm (t.setTable k b) := by
  cases k <;> exact h.same

theorem modScan_calm {f : ScanIntake → ScanIntake} (h : s.Calm t)
    (starts : t.scan.starts.length ≤ nScanStarts → (f t.scan).starts.length ≤ nScanStarts)
    (intake : t.scan.queue.length ≤ nIntake → (f t.scan).queue.length ≤ nIntake) : s.Calm (t.modScan f) :=
  h.trans ⟨rfl, rfl, id, starts, intake, id, id, id, id, fun _ => rfl⟩

theorem setHead_calm {d : Head} {v : HeadUnit} (h : s.Calm t) : s.Calm (t.setHead d v) := by
  cases d <;> exact h.same

theorem modLabels_calm {f : LabelChannel → LabelChannel} (h : s.Calm t)
    (labels : t.labels.queue.length ≤ nLabels → (f t.labels).queue.length ≤ nLabels) : s.Calm (t.modLabels f) :=
  h.trans ⟨rfl, rfl, id, id, id, labels, id, id, id, fun _ => rfl⟩

theorem modEntry_calm {n : Nat} {f : LabelEntry → LabelEntry} (h : s.Calm t) : s.Calm (t.modEntry n f) :=
  h.same (labels := by simp [modEntry, modLabels])

theorem modSec_calm {x : Sec} {f : SectionUnit → SectionUnit} (h : s.Calm t)
    (schedule : (t.sec x).schedule.length ≤ nSchedule → (f (t.sec x)).schedule.length ≤ nSchedule) :
    s.Calm (t.modSec x f) := by
  refine h.trans ⟨rfl, rfl, id, id, id, id, fun k y => ?_, id, id, fun _ => rfl⟩
  by_cases e : y = x
  · subst e; simpa using schedule (k y)
  · simpa [e] using k y

theorem modSecs_calm {f : SectionUnit → SectionUnit} (h : s.Calm t)
    (schedule : ∀ v : SectionUnit, v.schedule.length ≤ nSchedule → (f v).schedule.length ≤ nSchedule) :
    s.Calm (t.modSecs f) :=
  h.trans ⟨rfl, rfl, id, id, id, id, fun k x => by simpa using schedule _ (k x), id, id, fun _ => rfl⟩

/-- A write to a record that keeps its location. -/
theorem writeRecord_calm {i : Fin 64} {f : Record → Record} (h : s.Calm t) (loc : ∀ r, (f r).loc = r.loc) :
    s.Calm (t.writeRecord i f) := by
  unfold writeRecord
  split
  · rename_i live
    refine h.trans ⟨rfl, rfl, id, id, id, id, id, id, fun k => ?_, fun _ => rfl⟩
    have e : ∀ j : Fin 64, ((t.setRecord i (f (t.record i))).record j).loc = (t.record j).loc := fun j => by
      by_cases hj : j = i
      · subst hj; simp [loc]
      · simp [hj]
    refine ⟨k.freeNodup, k.secNodup, fun j => (k.free j).trans (Iff.of_eq (congrArg (· = Loc.free) (e j).symm)),
      fun x j => (k.onSec x j).trans (Iff.of_eq (congrArg (· = locOf x) (e j).symm)),
      fun j hj => ?_⟩
    by_cases g : j = i
    · subst g
      have : t.live j = false := by simpa [State.live] using (e j).symm.trans hj
      rw [live] at this; cases this
    · have hv : i.val ≠ j.val := fun q => g (Fin.ext q.symm)
      have := k.blank j ((e j).symm.trans hj)
      simpa [setRecord, hv] using this
  · exact h

/-! ### Reports -/

theorem arbitrate_calm (h : s.Calm t) : s.Calm t.arbitrate := by
  unfold arbitrate
  split
  · rename_i idle
    repeat' split
    · exact h.trans ⟨rfl, rfl, id, id, id, id, id, id, id, fun e => absurd idle e⟩
    · exact h
    · exact h.trans ⟨rfl, rfl, id, id, id, id, id, id, id, fun e => absurd idle e⟩
  · exact h

theorem enqueueReport_length (r : Report) (s : State) : (s.enqueueReport r).reports.queue.length = s.reports.queue.length + 1 := by
  simp [enqueueReport]

theorem hasRoom_free {r : Report} (h : s.hasRoom r = true) : s.reports.queue.length < nReports := by
  unfold hasRoom freeReports at h
  split at h <;> simp_all [nReports, pieceReserve] <;> omega

theorem enqueueReport_calm {r : Report} (h : s.Calm t) (room : t.hasRoom r = true) : s.Calm (t.enqueueReport r) :=
  h.trans ⟨rfl, rfl, fun _ => (enqueueReport_length r t).trans_le (hasRoom_free room), id, id, id, id, id, id,
    fun _ => rfl⟩

theorem offer_calm {r : Report} (h : s.Calm t) : s.Calm (t.offer r) := by
  unfold offer
  repeat' split
  · exact h
  · exact arbitrate_calm (enqueueReport_calm h ‹_›)
  · exact enqueueReport_calm h ‹_›
  · exact h.same

/-! ### Pairs -/

theorem setPair_calm {p : Fin 6} {q : Option Pair} (h : s.Calm t)
    (guarded : t.PairsGuarded → ∀ r, q = some r → r.Guarded) : s.Calm (t.setPair p q) := by
  refine h.trans ⟨rfl, rfl, id, id, id, id, id, fun k j r hr => ?_, id, fun _ => rfl⟩
  by_cases e : j = p
  · subst e; exact guarded k r (by simpa using hr)
  · exact k j r (by simpa [e] using hr)

end State

theorem Combo.ne_complement (c : Combo) : c ≠ c.complement := by
  cases c; simp [Combo.complement]

theorem Pair.Guarded.toSafe {q : Pair} (_h : q.Guarded) : q.toSafe.Guarded :=
  ⟨Combo.ne_complement _, fun _ => rfl, fun _ => rfl, fun _ k => absurd k (by simp [Pair.toSafe])⟩

theorem Pair.Guarded.rest {q : Pair} (_h : q.Guarded) : q.rest.Guarded :=
  ⟨Combo.ne_complement _, fun _ => rfl, fun _ => rfl, fun _ k => absurd k (by simp [Pair.rest])⟩

theorem Pair.Guarded.expire {q : Pair} (h : q.Guarded) : q.expire.Guarded := by
  refine ⟨?_, fun k => absurd k (by simp [Pair.expire]), fun _ => rfl, fun _ k => absurd k (by simp [Pair.expire])⟩
  unfold Pair.expire
  cases e : q.target with
  | none => exact Combo.ne_complement _
  | some c => exact (h.target c e).2

theorem Pair.Guarded.take {q : Pair} (h : q.Guarded) {c : Combo} (hc : c ≠ q.safe.complement) (n : Nat) :
    (q.take c n).Guarded := by
  obtain ⟨h1, h2, h3, h4⟩ := h
  unfold Pair.take
  split
  · rename_i t e
    have hs := h2 (by simp [e])
    split
    · exact ⟨h1, fun _ => hs, fun _ => rfl, fun d k => absurd k (by simp)⟩
    · exact ⟨h1, fun _ => hs, fun k => absurd (e.symm.trans k) (by simp), fun d k => by
        simp at k; subst k; exact ⟨‹_›, hc⟩⟩
  · rename_i e
    have ht := h3 e
    have hn : ¬ q.timer.isSome = true := by simp [e]
    repeat' split
    · exact ⟨h1, h2, h3, h4⟩
    · exact ⟨Combo.ne_complement _, fun _ => rfl, fun _ => ht, h4⟩
    · exact ⟨hc, fun k => absurd k hn, fun _ => ht, h4⟩
    · exact ⟨hc, fun k => absurd k hn, fun _ => ht, h4⟩
    · exact ⟨Combo.ne_complement _, fun _ => rfl, fun k => absurd k (by simp), fun d k => by
        simp at k; subst k; exact ⟨‹_›, hc⟩⟩

theorem State.targetRequest_calm {s t : State} {src : Source} {n : Nat} {p : Fin 6} {c : Combo} (h : s.Calm t) :
    s.Calm (t.targetRequest src n p c) := by
  unfold targetRequest
  split
  · exact h
  · rename_i q hq
    split
    · exact offer_calm (setPair_calm h fun k r hr => by cases hr; exact (k p q hq).toSafe)
    · exact setPair_calm h fun k r hr => by cases hr; exact (k p q hq).take ‹_› _

theorem State.pair_outputsSafe (keep : Option (Fin 24)) (p : Fin 6) (s : State) :
    (s.outputsSafe keep).pair p = (s.pair p).map Pair.rest := by
  simp [pair, outputsSafe]

theorem State.outputsSafe_calm {s t : State} {keep : Option (Fin 24)} (h : s.Calm t) : s.Calm (t.outputsSafe keep) := by
  refine h.trans ⟨?_, ?_, ?_, ?_, ?_, ?_, ?_, fun k p q hq => ?_, ?_, ?_⟩
  case refine_8 =>
    rw [pair_outputsSafe] at hq
    obtain ⟨r, hr, rfl⟩ := Option.map_eq_some_iff.1 hq
    exact (k p r hr).rest
  all_goals simp [outputsSafe, sec]

/-! ### Lists -/

theorem State.live_iff {s : State} {i : Fin 64} : s.live i = true ↔ (s.record i).loc ≠ .free := by
  simp [State.live]

/-- A live record goes to FREE. -/
theorem State.toFree_calm {s t : State} {i : Fin 64} (h : s.Calm t) (live : t.live i = true) : s.Calm (t.toFree i) := by
  have hl : (t.pool.records[i]).loc ≠ .free := live_iff.1 live
  refine h.trans ⟨rfl, rfl, id, id, id, id, id, id, fun k =>
    ⟨?_, fun x => ?_, fun j => ?_, fun x j => ?_, fun j => ?_⟩, fun _ => rfl⟩
  · have hi : i ∉ t.pool.free := fun m => hl ((k.free i).1 m)
    have e : (t.toFree i).pool.free = t.pool.free ++ [i] := rfl
    rw [e]
    exact k.freeNodup.append (List.nodup_singleton i) (List.disjoint_singleton.2 hi)
  · have e : (t.toFree i).pool.onSec[x.idx] = t.pool.onSec[x.idx].filter (fun j => decide (j ≠ i)) := by
      cases x <;> simp [toFree]
    rw [e]
    exact (k.secNodup x).filter _
  · have e : (t.toFree i).pool.free = t.pool.free ++ [i] := rfl
    rw [e]
    by_cases g : j = i
    · subst g; simp [toFree]
    · have hv : i.val ≠ j.val := fun q => g (Fin.ext q.symm)
      simpa [toFree, g, hv] using k.free j
  · have e : (t.toFree i).pool.onSec[x.idx] = t.pool.onSec[x.idx].filter (fun j => decide (j ≠ i)) := by
      cases x <;> simp [toFree]
    rw [e]
    by_cases g : j = i
    · subst g; cases x <;> simp [toFree, locOf]
    · have hv : i.val ≠ j.val := fun q => g (Fin.ext q.symm)
      simpa [toFree, g, hv] using k.onSec x j
  · by_cases g : j = i
    · subst g; simp [toFree]
    · have hv : i.val ≠ j.val := fun q => g (Fin.ext q.symm)
      simpa [toFree, hv] using k.blank j

/-- The head of FREE goes to the tail of S1. -/
theorem State.allocate_lists {t : State} {i : Fin 64} {rest : List (Fin 64)} {r : Record} {n : Nat}
    (free : t.pool.free = i :: rest) (loc : r.loc = .s1) (k : t.pool.Partitioned) :
    Pool.Partitioned { t.pool with
      records := t.pool.records.set i r
      free := rest
      onSec := t.pool.onSec.set 0 (t.pool.onSec[0] ++ [i])
      tagCounter := n } := by
  have hn := k.freeNodup
  rw [free, List.nodup_cons] at hn
  have hf : (t.pool.records[i]).loc = .free := (k.free i).1 (by simp [free])
  have hs : ∀ x : Sec, i ∉ t.pool.onSec[x.idx] := fun x m => by
    have := (k.onSec x i).1 m
    rw [hf] at this; cases x <;> cases this
  refine ⟨hn.2, fun x => ?_, fun j => ?_, fun x j => ?_, fun j => ?_⟩
  · cases x
    · simpa using (k.secNodup .s1).append (List.nodup_singleton i) (List.disjoint_singleton.2 (hs .s1))
    · simpa using k.secNodup .s2
    · simpa using k.secNodup .s3
    · simpa using k.secNodup .s4
  · by_cases g : j = i
    · subst g; simp [loc, hn.1]
    · have hv : i.val ≠ j.val := fun q => g (Fin.ext q.symm)
      have := k.free j
      simp only [free, List.mem_cons, g, false_or] at this
      simpa [hv] using this
  · by_cases g : j = i
    · subst g
      have h0 := hs x
      cases x <;> simp_all [locOf]
    · have hv : i.val ≠ j.val := fun q => g (Fin.ext q.symm)
      have := k.onSec x j
      cases x <;> simpa [hv, g] using this
  · by_cases g : j = i
    · subst g; simp [loc]
    · have hv : i.val ≠ j.val := fun q => g (Fin.ext q.symm)
      simpa [hv] using k.blank j

/-- A handoff from the list of one section to another. -/
theorem State.handoff_lists {t : State} {x y : Sec} {i : Fin 64} {r : Record} (loc : r.loc = locOf y)
    (mem : i ∈ t.pool.onSec[x.idx]) (ne : x ≠ y) (k : t.pool.Partitioned) :
    Pool.Partitioned { t.pool with
      records := t.pool.records.set i r
      onSec := (t.pool.onSec.set x.idx (t.pool.onSec[x.idx].erase i)).set y.idx
        ((t.pool.onSec.set x.idx (t.pool.onSec[x.idx].erase i))[y.idx] ++ [i]) } := by
  have hx : (t.pool.records[i]).loc = locOf x := (k.onSec x i).1 mem
  have hs : ∀ z : Sec, z ≠ x → i ∉ t.pool.onSec[z.idx] := fun z hz m => by
    have := (k.onSec z i).1 m
    rw [hx] at this; cases x <;> cases z <;> simp_all [locOf]
  have hf : i ∉ t.pool.free := fun m => by
    have := (k.free i).1 m
    rw [hx] at this; cases x <;> cases this
  have key : ∀ z : Sec, (((t.pool.onSec.set x.idx (t.pool.onSec[x.idx].erase i)).set y.idx
        ((t.pool.onSec.set x.idx (t.pool.onSec[x.idx].erase i))[y.idx] ++ [i])))[z.idx]
      = if z = y then t.pool.onSec[y.idx] ++ [i] else if z = x then t.pool.onSec[x.idx].erase i
        else t.pool.onSec[z.idx] := by
    cases x <;> cases y <;> intro z <;> cases z <;> simp_all
  refine ⟨k.freeNodup, fun z => ?_, fun j => ?_, fun z j => ?_, fun j => ?_⟩
  · rw [key z]
    split
    · exact (k.secNodup y).append (List.nodup_singleton i) (List.disjoint_singleton.2 (hs y (Ne.symm ne)))
    · split
      · exact (k.secNodup x).erase i
      · exact k.secNodup z
  · by_cases g : j = i
    · subst g; cases y <;> simp_all [locOf]
    · have hv : i.val ≠ j.val := fun q => g (Fin.ext q.symm)
      simpa [hv] using k.free j
  · rw [key z]
    by_cases g : j = i
    · subst g
      have hz := hs z
      have hne : ∀ z, z ≠ y → locOf y ≠ locOf z := by
        intro z hz e; cases y <;> cases z <;> simp_all [locOf]
      split
      · subst z; simp [loc]
      · rename_i hzy
        split
        · refine iff_of_false (fun m => ((k.secNodup x).mem_erase_iff.1 m).1 rfl) ?_
          simpa [loc] using hne z hzy
        · refine iff_of_false (hz ‹_›) ?_
          simpa [loc] using hne z hzy
    · have hv : i.val ≠ j.val := fun q => g (Fin.ext q.symm)
      have hk := k.onSec z j
      split
      · subst z; simpa [hv, g] using hk
      · split
        · subst z; simpa [hv, List.mem_erase_of_ne g] using hk
        · simpa [hv] using hk
  · by_cases g : j = i
    · subst g; cases y <;> simp [loc, locOf]
    · have hv : i.val ≠ j.val := fun q => g (Fin.ext q.symm)
      simpa [hv] using k.blank j

end Sys2Proof.Machine
end

