-- ==== Sys2Proof/Laws/CalmOps.lean ====
section
/-! SUPPORT. Each shared operation keeps what `State.Calm` says. -/

namespace Sys2Proof.Machine

namespace State

open Sys2Proof.Config

variable {s t : State}

set_option linter.unusedTactic false
set_option linter.unreachableTactic false

theorem beginPulse_calm {l : Fin 24} (h : s.Calm t) : s.Calm (t.beginPulse l) := by
  unfold beginPulse
  try dsimp only
  repeat' (first | exact h | with_reducible apply startSaw_calm | with_reducible apply modLine_calm | split)

theorem pulseRequest_calm {l : Fin 24} (h : s.Calm t) : s.Calm (t.pulseRequest l) := by
  unfold pulseRequest
  try dsimp only
  repeat' (first | exact h | with_reducible apply beginPulse_calm | split)

theorem levelOn_calm {l : Fin 24} (h : s.Calm t) : s.Calm (t.levelOn l) := by
  unfold levelOn
  try dsimp only
  repeat' (first | exact h | with_reducible apply beginPulse_calm | with_reducible apply modLine_calm | split)

theorem levelOff_calm {l : Fin 24} (h : s.Calm t) : s.Calm (t.levelOff l) := by
  unfold levelOff
  try dsimp only
  repeat' (first | exact h | with_reducible apply modLine_calm)

theorem levelRequest_calm {on : Bool} {l : Fin 24} (h : s.Calm t) : s.Calm (t.levelRequest on l) := by
  unfold levelRequest
  try dsimp only
  repeat' (first | exact h | with_reducible apply levelOff_calm | with_reducible apply levelOn_calm | split)

theorem firedPulse_calm {x : Sec} {tag : Nat} {l : Fin 24} (h : s.Calm t) : s.Calm (t.firedPulse x tag l) := by
  unfold firedPulse
  try dsimp only
  repeat' (first | exact h | with_reducible apply pulseRequest_calm | with_reducible apply offer_calm | split)

theorem feedRequest_calm {on : Bool} {l : Fin 24} (h : s.Calm t) : s.Calm (t.feedRequest on l) := by
  unfold feedRequest
  try dsimp only
  repeat' (first | exact h | with_reducible apply levelRequest_calm | with_reducible apply offer_calm | split)

theorem feedLine_calm {on : Bool} (h : s.Calm t) : s.Calm (t.feedLine on) := by
  unfold feedLine
  try dsimp only
  repeat' (first | exact h | with_reducible apply feedRequest_calm | split)

theorem setReasons_calm {f : HoldReasons → HoldReasons} (h : s.Calm t) : s.Calm (t.setReasons f) := by
  unfold setReasons
  try dsimp only
  repeat' (first | exact h | with_reducible apply feedLine_calm | split)
  all_goals exact h.same

theorem lowAfterAllocation_calm  (h : s.Calm t) : s.Calm (t.lowAfterAllocation) := by
  unfold lowAfterAllocation
  try dsimp only
  repeat' (first | exact h | with_reducible apply setReasons_calm | split)

theorem lowAfterRelease_calm  (h : s.Calm t) : s.Calm (t.lowAfterRelease) := by
  unfold lowAfterRelease
  try dsimp only
  repeat' (first | exact h | with_reducible apply setReasons_calm | split)

theorem lowTest_calm  (h : s.Calm t) : s.Calm (t.lowTest) := by
  unfold lowTest
  try dsimp only
  repeat' (first | exact h | with_reducible apply setReasons_calm | split)

theorem startSend_calm {e : LabelEntry} (h : s.Calm t) : s.Calm (t.startSend e) := by
  unfold startSend
  try dsimp only
  repeat' (first | exact h | exact id | with_reducible apply modEntry_calm | with_reducible apply modLabels_calm
                 | split)

theorem trySend_calm  (h : s.Calm t) : s.Calm (t.trySend) := by
  unfold trySend
  try dsimp only
  repeat' (first | exact h | with_reducible apply startSend_calm | split)

theorem enterIdle_calm  (h : s.Calm t) : s.Calm (t.enterIdle) := by
  unfold enterIdle
  try dsimp only
  repeat' (first | exact h | exact id | with_reducible apply trySend_calm | with_reducible apply modLabels_calm
                 | split)

theorem endAwait_calm  (h : s.Calm t) : s.Calm (t.endAwait) := by
  unfold endAwait
  try dsimp only
  repeat' (first | exact h | exact id | with_reducible apply enterIdle_calm | with_reducible apply modLabels_calm
                 | split)

theorem endAwaitFailed_calm {serial : Nat} (h : s.Calm t) : s.Calm (t.endAwaitFailed serial) := by
  unfold endAwaitFailed
  try dsimp only
  repeat' (first | exact h | exact id | with_reducible apply modLabels_calm | split)

theorem leaveFault_calm  (h : s.Calm t) : s.Calm (t.leaveFault) := by
  unfold leaveFault
  try dsimp only
  repeat' (first | exact h | exact id | with_reducible apply enterIdle_calm | with_reducible apply modLabels_calm)

/-- A composition, given room in the label queue. -/
theorem compose_calm {p : Fin 12} {bu : Bundle} (h : s.Calm t) (room : t.labelRoom = true) : s.Calm (t.compose p bu) := by
  have hl : t.labels.queue.length < nLabels := by simpa [labelRoom] using room
  exact trySend_calm (modLabels_calm h fun _ => by simpa using hl)

theorem removeEntry_calm {serial : Nat} (h : s.Calm t) : s.Calm (t.removeEntry serial) := by
  unfold removeEntry
  split
  · exact h
  · have k : s.Calm (t.modLabels (fun c => { c with queue := c.queue.filter (fun x => decide (x.serial ≠ serial)) })) :=
      modLabels_calm h fun k => (List.length_filter_le _ _).trans k
    split
    · exact modLabels_calm k id
    · exact endAwait_calm (modLabels_calm k id)
    · split
      · exact leaveFault_calm k
      · exact k
    all_goals exact k

theorem movePocket_calm {p : Fin 12} {new : PocketState} {event : PocketEvent} {serial : Nat} (h : s.Calm t) : s.Calm (t.movePocket p new event serial) := by
  unfold movePocket
  try dsimp only
  repeat' (first | exact h | with_reducible apply offer_calm | with_reducible apply modPocket_calm)

theorem labelBundle_calm {p : Fin 12} {bu : Bundle} (h : s.Calm t) (room : t.labelRoom = true) :
    s.Calm (t.labelBundle p bu) :=
  movePocket_calm (modBundle_calm (compose_calm h room))

theorem discardBundle_calm {p : Fin 12} (h : s.Calm t) : s.Calm (t.discardBundle p) := by
  unfold discardBundle
  try dsimp only
  repeat' (first | exact h | with_reducible apply offer_calm | with_reducible apply modPocket_calm)

theorem joinWait_calm {p : Fin 12} (h : s.Calm t) : s.Calm (t.joinWait p) := by
  unfold joinWait
  try dsimp only
  repeat' (first | exact h | with_reducible apply modBundle_calm | with_reducible apply movePocket_calm)

theorem closingTest_calm {p : Fin 12} (h : s.Calm t) : s.Calm (t.closingTest p) := by
  unfold closingTest
  repeat' split
  · exact discardBundle_calm h
  · exact labelBundle_calm h ‹_›
  · exact joinWait_calm h
  · exact h
  · exact h

theorem grant_calm (h : s.Calm t) : s.Calm t.grant := by
  unfold grant
  repeat' split
  · exact h
  · exact labelBundle_calm h ‹_›
  · exact h
  · exact h

theorem closeBundle_calm {p : Fin 12} {reason : CloseReason} (h : s.Calm t) : s.Calm (t.closeBundle p reason) := by
  unfold closeBundle
  try dsimp only
  repeat' (first | exact h | with_reducible apply closingTest_calm | with_reducible apply modBundle_calm
                 | with_reducible apply movePocket_calm)

theorem fullTest_calm {p : Fin 12} (h : s.Calm t) : s.Calm (t.fullTest p) := by
  unfold fullTest
  try dsimp only
  repeat' (first | exact h | with_reducible apply closeBundle_calm | split)

theorem openBundle_calm {p : Fin 12} (h : s.Calm t) : s.Calm (t.openBundle p) := by
  unfold openBundle
  try dsimp only
  repeat' (first | exact h | with_reducible apply movePocket_calm | with_reducible apply modPocket_calm | split)

theorem reserve_calm {i : Fin 64} {p : Fin 12} {r : Fin 12} {len : Nat} (h : s.Calm t) : s.Calm (t.reserve i p r len) := by
  unfold reserve
  try dsimp only
  repeat' (first | exact h | exact fun _ => rfl | with_reducible apply openBundle_calm
                 | with_reducible apply fullTest_calm | with_reducible apply modBundle_calm
                 | with_reducible apply writeRecord_calm)

theorem unreserve_calm {pl : Placement} (h : s.Calm t) : s.Calm (t.unreserve pl) := by
  unfold unreserve
  try dsimp only
  repeat' (first | exact h | with_reducible apply modBundle_calm)

theorem dropPlacement_calm {i : Fin 64} (h : s.Calm t) : s.Calm (t.dropPlacement i) := by
  unfold dropPlacement
  try dsimp only
  repeat' (first | exact h | exact fun _ => rfl | with_reducible apply unreserve_calm
                 | with_reducible apply writeRecord_calm | split)

theorem handBack_calm {i : Fin 64} (h : s.Calm t) : s.Calm (t.handBack i) := by
  unfold handBack
  try dsimp only
  repeat' (first | exact h | with_reducible apply dropPlacement_calm | with_reducible apply closingTest_calm
                 | split)

theorem clearBundle_calm {p : Fin 12} {serial : Nat} (h : s.Calm t) : s.Calm (t.clearBundle p serial) := by
  unfold clearBundle
  try dsimp only
  repeat' (first | exact h | with_reducible apply grant_calm | with_reducible apply removeEntry_calm
                 | with_reducible apply offer_calm | with_reducible apply modPocket_calm)

theorem clearBin_calm {p : Fin 12} (h : s.Calm t) : s.Calm (t.clearBin p) := by
  unfold clearBin
  try dsimp only
  repeat' (first | exact h | with_reducible apply movePocket_calm | with_reducible apply modPocket_calm)

theorem clearEdge_calm {p : Fin 12} (h : s.Calm t) : s.Calm (t.clearEdge p) := by
  unfold clearEdge
  try dsimp only
  repeat' (first | exact h | with_reducible apply clearBin_calm | with_reducible apply clearBundle_calm
                 | with_reducible apply offer_calm | split)

theorem solverNext_calm  (h : s.Calm t) : s.Calm (t.solverNext) := by
  unfold solverNext
  try dsimp only
  repeat' (first | exact h | exact fun _ => rfl | with_reducible apply modSolver_calm
                 | with_reducible apply writeRecord_calm | split)

theorem solverForget_calm {i : Fin 64} (h : s.Calm t) : s.Calm (t.solverForget i) := by
  unfold solverForget
  try dsimp only
  repeat' (first | exact h | exact length_filter_keeps | exact fun _ => length_filter_keeps
                 | with_reducible apply solverNext_calm | with_reducible apply modSolver_calm | split)

theorem solverJoin_calm {i : Fin 64} (h : s.Calm t) : s.Calm (t.solverJoin i) := by
  unfold solverJoin
  try dsimp only
  repeat' (first | exact h | exact fun _ => rfl | with_reducible apply solverNext_calm
                 | with_reducible apply modSolver_calm | with_reducible apply writeRecord_calm)

theorem swapBanks_calm  (h : s.Calm t) : s.Calm (t.swapBanks) := by
  unfold swapBanks
  try dsimp only
  repeat' (first | exact h | with_reducible apply modSolver_calm)

theorem bankCommit_calm  (h : s.Calm t) : s.Calm (t.bankCommit) := by
  unfold bankCommit
  try dsimp only
  repeat' (first | exact h | with_reducible apply swapBanks_calm | split)

theorem putDisposition_calm {i : Fin 64} {d : Disposition} (h : s.Calm t) : s.Calm (t.putDisposition i d) := by
  unfold putDisposition
  try dsimp only
  repeat' (first | exact h | exact fun _ => rfl | with_reducible apply handBack_calm
                 | with_reducible apply writeRecord_calm | split)

theorem writeDisposition_calm {i : Fin 64} {d : Disposition} (h : s.Calm t) : s.Calm (t.writeDisposition i d) := by
  unfold writeDisposition
  try dsimp only
  repeat' (first | exact h | with_reducible apply putDisposition_calm | split)

theorem markUnscanned_calm {i : Fin 64} (h : s.Calm t) : s.Calm (t.markUnscanned i) := by
  unfold markUnscanned
  try dsimp only
  repeat' (first | exact h | with_reducible apply writeDisposition_calm | with_reducible apply modCounters_calm
                 | split)

theorem reportRun_calm {former : RunState} {cause : RunCause} {released : Nat} (h : s.Calm t) : s.Calm (t.reportRun former cause released) := by
  unfold reportRun
  try dsimp only
  repeat' (first | exact h | with_reducible apply offer_calm)

theorem stopFollowing_calm  (h : s.Calm t) : s.Calm (t.stopFollowing) := by
  unfold stopFollowing
  try dsimp only
  repeat' (first | exact h | exact id | exact fun _ => id | with_reducible apply modCuts_calm
                 | with_reducible apply modSecs_calm)
  all_goals exact h.same

theorem drainTest_calm  (h : s.Calm t) : s.Calm (t.drainTest) := by
  unfold drainTest
  try dsimp only
  repeat' (first | exact h | with_reducible apply stopFollowing_calm | with_reducible apply modRun_calm
                 | with_reducible apply reportRun_calm | with_reducible apply bankCommit_calm | split)

theorem removeEntries_calm {i : Fin 64} (h : s.Calm t) : s.Calm (t.removeEntries i) := by
  unfold removeEntries
  try dsimp only
  repeat' (first | exact h | exact id | exact fun _ => id | exact length_filter_keeps
                 | exact fun _ => length_filter_keeps | with_reducible apply modSecs_calm)

/-! Operations that leave every location keep which records are live. -/

theorem live_of_pool (e : t.pool = s.pool) (i : Fin 64) : t.live i = s.live i := by
  unfold live record; rw [e]

theorem writeRecord_live {i : Fin 64} {f : Record → Record} (loc : ∀ r, (f r).loc = r.loc) (j : Fin 64) :
    (t.writeRecord i f).live j = t.live j := by
  unfold writeRecord
  split
  · unfold live
    by_cases e : j = i
    · subst e; simp [loc]
    · simp [e]
  · rfl

theorem arbitrate_pool (t : State) : t.arbitrate.pool = t.pool := by
  unfold arbitrate; repeat' split
  all_goals rfl

theorem offer_pool (r : Report) (t : State) : (t.offer r).pool = t.pool := by
  unfold offer; repeat' split
  all_goals simp [arbitrate_pool]

theorem trySend_pool (t : State) : t.trySend.pool = t.pool := by
  unfold trySend startSend; repeat' split
  all_goals simp

theorem movePocket_pool (p : Fin 12) (new : PocketState) (event : PocketEvent) (n : Nat) (t : State) :
    (t.movePocket p new event n).pool = t.pool := by
  simp [movePocket, offer_pool]

theorem closingTest_pool (p : Fin 12) (t : State) : (t.closingTest p).pool = t.pool := by
  unfold closingTest discardBundle labelBundle joinWait compose
  repeat' split
  all_goals simp [movePocket_pool, offer_pool, trySend_pool]

theorem handBack_live (i j : Fin 64) (t : State) : (t.handBack i).live j = t.live j := by
  unfold handBack
  split
  · rfl
  · rw [live_of_pool (closingTest_pool _ _)]
    unfold dropPlacement unreserve
    split
    · rfl
    · refine (writeRecord_live (by intro _; rfl) j).trans ?_
      exact live_of_pool (by simp) j

theorem removeEntries_live (i j : Fin 64) (t : State) : (t.removeEntries i).live j = t.live j :=
  live_of_pool (by simp [removeEntries]) j

theorem solverForget_live (i j : Fin 64) (t : State) : (t.solverForget i).live j = t.live j := by
  unfold solverForget
  dsimp only
  split
  · unfold solverNext
    split
    · split
      · refine (writeRecord_live (by intro _; rfl) j).trans ?_
        exact live_of_pool (by simp) j
      · exact live_of_pool (by simp) j
    · exact live_of_pool (by simp) j
  · exact live_of_pool (by simp) j

theorem release_calm {i : Fin 64} (h : s.Calm t) : s.Calm (t.release i) := by
  unfold release
  split
  · refine drainTest_calm (lowAfterRelease_calm (toFree_calm (handBack_calm (removeEntries_calm (solverForget_calm h)))
      ?_))
    rwa [handBack_live, removeEntries_live, solverForget_live]
  · exact h

theorem countLost_calm {x : Sec} (h : s.Calm t) : s.Calm (t.countLost x) := by
  unfold countLost
  try dsimp only
  repeat' (first | exact h | with_reducible apply modCounters_calm)

theorem lose_calm {i : Fin 64} {x : Sec} (h : s.Calm t) : s.Calm (t.lose i x) := by
  unfold lose
  try dsimp only
  repeat' (first | exact h | with_reducible apply countLost_calm | with_reducible apply release_calm
                 | with_reducible apply putDisposition_calm | with_reducible apply offer_calm)

theorem keepEntries_calm {x : Sec} {keep : Entry → Bool} (h : s.Calm t) : s.Calm (t.keepEntries x keep) := by
  unfold keepEntries
  try dsimp only
  repeat' (first | exact h | exact id | exact length_filter_keeps | exact fun _ => length_filter_keeps
                 | with_reducible apply drainTest_calm | with_reducible apply modSec_calm)

theorem withdrawHead_calm {i : Fin 64} {head : Option (Fin 6)} (h : s.Calm t) : s.Calm (t.withdrawHead i head) := by
  unfold withdrawHead
  try dsimp only
  repeat' (first | exact h | with_reducible apply keepEntries_calm | split)

theorem withdrawHeads_calm {i : Fin 64} (h : s.Calm t) : s.Calm (t.withdrawHeads i) := by
  unfold withdrawHeads
  try dsimp only
  repeat' (first | exact h | with_reducible apply withdrawHead_calm)

theorem markSuspect_calm {i : Fin 64} (h : s.Calm t) : s.Calm (t.markSuspect i) := by
  unfold markSuspect
  try dsimp only
  repeat' (first | exact h | exact fun _ => rfl | with_reducible apply withdrawHeads_calm
                 | with_reducible apply keepEntries_calm | with_reducible apply writeDisposition_calm
                 | with_reducible apply modCounters_calm | with_reducible apply writeRecord_calm | split)

theorem missedCut_calm {i : Fin 64} (h : s.Calm t) : s.Calm (t.missedCut i) := by
  unfold missedCut
  try dsimp only
  repeat' (first | exact h | exact fun _ => rfl | with_reducible apply withdrawHeads_calm
                 | with_reducible apply writeDisposition_calm | with_reducible apply modCounters_calm
                 | with_reducible apply writeRecord_calm | split)

theorem sawCut_calm {i : Fin 64} {l : Fin 24} (h : s.Calm t) : s.Calm (t.sawCut i l) := by
  unfold sawCut
  try dsimp only
  repeat' (first | exact h | with_reducible apply missedCut_calm | with_reducible apply pulseRequest_calm
                 | with_reducible apply startSaw_calm | with_reducible apply offer_calm | split)

theorem countKick_calm {p : Fin 12} (h : s.Calm t) : s.Calm (t.countKick p) := by
  unfold countKick
  try dsimp only
  repeat' (first | exact h | with_reducible apply modCounters_calm)

theorem commitPiece_calm {pl : Placement} {len : Nat} (h : s.Calm t) : s.Calm (t.commitPiece pl len) := by
  unfold commitPiece
  try dsimp only
  repeat' (first | exact h | with_reducible apply modBundle_calm)

theorem kickBundle_calm {i : Fin 64} {pl : Placement} (h : s.Calm t) : s.Calm (t.kickBundle i pl) := by
  unfold kickBundle
  try dsimp only
  repeat' (first | exact h | exact fun _ => rfl | with_reducible apply commitPiece_calm
                 | with_reducible apply countKick_calm | with_reducible apply release_calm
                 | with_reducible apply closingTest_calm | with_reducible apply offer_calm
                 | with_reducible apply writeRecord_calm)

theorem binFollows_calm {p : Fin 12} (h : s.Calm t) : s.Calm (t.binFollows p) := by
  unfold binFollows
  try dsimp only
  repeat' (first | exact h | with_reducible apply movePocket_calm | with_reducible apply modPocket_calm | split)

theorem kickBin_calm {i : Fin 64} {p : Fin 12} (h : s.Calm t) : s.Calm (t.kickBin i p) := by
  unfold kickBin
  try dsimp only
  repeat' (first | exact h | with_reducible apply binFollows_calm | with_reducible apply countKick_calm
                 | with_reducible apply release_calm | with_reducible apply offer_calm
                 | with_reducible apply modPocket_calm)

theorem kickTaken_calm {i : Fin 64} (h : s.Calm t) : s.Calm (t.kickTaken i) := by
  unfold kickTaken
  try dsimp only
  repeat' (first | exact h | with_reducible apply kickBin_calm | with_reducible apply kickBundle_calm | split)

theorem kick_calm {i : Fin 64} {l : Fin 24} (h : s.Calm t) : s.Calm (t.kick i l) := by
  unfold kick
  try dsimp only
  repeat' (first | exact h | with_reducible apply kickTaken_calm | with_reducible apply firedPulse_calm)

theorem fireEntry_calm {x : Sec} {e : Entry} (h : s.Calm t) : s.Calm (t.fireEntry x e) := by
  unfold fireEntry
  try dsimp only
  repeat' (first | exact h | exact id | exact length_erase_keeps | with_reducible apply kick_calm
                 | with_reducible apply sawCut_calm | with_reducible apply drainTest_calm
                 | with_reducible apply targetRequest_calm | with_reducible apply firedPulse_calm
                 | with_reducible apply modSec_calm | split)

theorem fireReached_calm {x : Sec} {i : Fin 64} (n : Nat) {t : State} (h : s.Calm t) :
    s.Calm (fireReached x i n t) := by
  induction n generalizing t with
  | zero => exact h
  | succ n ih =>
    unfold fireReached
    split
    · exact h
    · exact ih (fireEntry_calm h)

theorem length_insertEntry (c : Pos) (e : Entry) (l : List Entry) : (insertEntry c e l).length = l.length + 1 := by
  induction l with
  | nil => rfl
  | cons x xs ih => unfold insertEntry; split <;> simp [ih]

theorem length_insertAll (c : Pos) (es l : List Entry) :
    (es.foldl (fun l e => insertEntry c e l) l).length = l.length + es.length := by
  induction es generalizing l with
  | nil => rfl
  | cons e es ih => simp [ih, length_insertEntry]; omega

/-- Entries inserted, given room in the schedule. -/
theorem insertEntries_calm {x : Sec} {i : Fin 64} {es : List Entry} (h : s.Calm t)
    (room : t.scheduleRoom x es.length = true) : s.Calm (t.insertEntries x i es) := by
  have hr : es.length + (t.sec x).schedule.length ≤ nSchedule := by simpa [scheduleRoom] using room
  exact fireReached_calm 4 (modSec_calm h fun _ => by simpa [length_insertAll, Nat.add_comm] using hr)

theorem markMissed_calm {i : Fin 64} (h : s.Calm t) : s.Calm (t.markMissed i) := by
  unfold markMissed
  try dsimp only
  repeat' (first | exact h | exact fun _ => rfl | with_reducible apply writeDisposition_calm
                 | with_reducible apply solverForget_calm | with_reducible apply modCounters_calm
                 | with_reducible apply writeRecord_calm)

theorem commitSolver_calm {i : Fin 64} (h : s.Calm t) : s.Calm (t.commitSolver i) := by
  unfold commitSolver
  try dsimp only
  repeat' (first | exact h | with_reducible apply markMissed_calm | split)

theorem commitScan_calm {i : Fin 64} (h : s.Calm t) : s.Calm (t.commitScan i) := by
  unfold commitScan
  try dsimp only
  repeat' (first | exact h | with_reducible apply markUnscanned_calm | split)

theorem commitDecision_calm {i : Fin 64} (h : s.Calm t) : s.Calm (t.commitDecision i) := by
  unfold commitDecision
  split
  · split
    · exact h
    · split
      · exact insertEntries_calm (modCuts_calm h) ‹_›
      · exact writeDisposition_calm h
  · exact h

theorem commitEvent_calm {i : Fin 64} (h : s.Calm t) : s.Calm (t.commitEvent i) := by
  unfold commitEvent
  try dsimp only
  repeat' (first | exact h | exact fun _ => rfl | with_reducible apply commitDecision_calm
                 | with_reducible apply commitScan_calm | with_reducible apply commitSolver_calm
                 | with_reducible apply writeRecord_calm)

theorem skipEndMatch_calm {i : Fin 64} (h : s.Calm t) : s.Calm (t.skipEndMatch i) := by
  unfold skipEndMatch
  try dsimp only
  repeat' (first | exact h | exact fun _ => rfl | with_reducible apply writeDisposition_calm
                 | with_reducible apply modCounters_calm | with_reducible apply writeRecord_calm | split)

theorem setLastRetracts_calm {i : Fin 64} (h : s.Calm t) : s.Calm (t.setLastRetracts i) := by
  unfold setLastRetracts
  try dsimp only
  repeat' (first | exact h | with_reducible apply modCuts_calm | split)

theorem endMatch_calm {i : Fin 64} (h : s.Calm t) : s.Calm (t.endMatch i) := by
  unfold endMatch
  split
  · split
    · exact h
    · split
      · exact skipEndMatch_calm h
      · split
        · exact insertEntries_calm (setLastRetracts_calm h) ‹_›
        · exact skipEndMatch_calm h
  · exact h

theorem scheduleKick_calm {i : Fin 64} {p : Fin 12} {bin : Option (Fin 12)} (h : s.Calm t) :
    s.Calm (t.scheduleKick i p bin) := by
  unfold scheduleKick
  split
  · exact h
  · dsimp only
    split
    · exact insertEntries_calm h ‹_›
    · exact writeDisposition_calm h

theorem sortBin_calm {i : Fin 64} (h : s.Calm t) : s.Calm (t.sortBin i) := by
  unfold sortBin
  try dsimp only
  repeat' (first | exact h | with_reducible apply scheduleKick_calm | with_reducible apply writeDisposition_calm
                 | split)

theorem replacePlacement_calm {i : Fin 64} {pl : Placement} (h : s.Calm t) : s.Calm (t.replacePlacement i pl) := by
  unfold replacePlacement
  try dsimp only
  repeat' (first | exact h | with_reducible apply sortBin_calm | with_reducible apply scheduleKick_calm
                 | with_reducible apply writeDisposition_calm | with_reducible apply dropPlacement_calm
                 | with_reducible apply reserve_calm | split)

theorem sortPocket_calm {i : Fin 64} {pl : Placement} (h : s.Calm t) : s.Calm (t.sortPocket i pl) := by
  unfold sortPocket
  try dsimp only
  repeat' (first | exact h | with_reducible apply replacePlacement_calm | with_reducible apply scheduleKick_calm
                 | split)

theorem sortCommit_calm {i : Fin 64} (h : s.Calm t) : s.Calm (t.sortCommit i) := by
  unfold sortCommit
  try dsimp only
  repeat' (first | exact h | exact fun _ => rfl | with_reducible apply sortPocket_calm
                 | with_reducible apply sortBin_calm | with_reducible apply writeRecord_calm | split)

theorem lengthCheck_calm {i : Fin 64} {x : Sec} {measured : Nat} (h : s.Calm t) : s.Calm (t.lengthCheck i x measured) := by
  unfold lengthCheck
  try dsimp only
  repeat' (first | exact h | with_reducible apply markSuspect_calm | split)

theorem announce_calm {i : Fin 64} (h : s.Calm t) : s.Calm (t.announce i) := by
  unfold announce
  split
  · rename_i k
    exact h.trans ⟨rfl, rfl, id, fun _ => by simpa using k, id, id, id, id, id, fun _ => rfl⟩
  · exact markUnscanned_calm (writeRecord_calm h fun _ => rfl)

theorem degradedFaces_calm {i : Fin 64} (h : s.Calm t) : s.Calm (t.degradedFaces i) := by
  unfold degradedFaces
  try dsimp only
  repeat' (first | exact h | exact fun _ => rfl | with_reducible apply markUnscanned_calm
                 | with_reducible apply writeRecord_calm | split)

theorem countGauged_calm  (h : s.Calm t) : s.Calm (t.countGauged) := by
  unfold countGauged
  try dsimp only
  repeat' (first | exact h | with_reducible apply modCounters_calm)

theorem countUntracked_calm  (h : s.Calm t) : s.Calm (t.countUntracked) := by
  unfold countUntracked
  try dsimp only
  repeat' (first | exact h | with_reducible apply modCounters_calm)

theorem allocate_calm {i : Fin 64} {rest : List (Fin 64)} {n : Nat} {lead : Pos} {d : Disposition} {p : ProfileStatus}
    (h : s.Calm t) (free : t.pool.free = i :: rest) : s.Calm (t.allocate i rest n lead d p) := by
  unfold allocate
  exact lowAfterAllocation_calm (h.trans ⟨rfl, rfl, id, id, id, id, id, id, allocate_lists free rfl, fun _ => rfl⟩)

theorem gaugedStrip_calm {mm : Nat} {lead : Pos} (h : s.Calm t) : s.Calm (t.gaugedStrip mm lead) := by
  have k : s.Calm t.countGauged := countGauged_calm h
  unfold gaugedStrip
  dsimp only
  split
  · exact countUntracked_calm k
  · split
    · exact modCounters_calm (allocate_calm k ‹_›)
    · exact announce_calm (degradedFaces_calm (allocate_calm k ‹_›))

theorem gaugeLead_calm {pos : Pos} (h : s.Calm t) : s.Calm (t.gaugeLead pos) := by
  unfold gaugeLead
  try dsimp only
  repeat' (first | exact h | with_reducible apply bankCommit_calm)
  all_goals exact h.same

theorem gaugeTail_calm {pos : Pos} (h : s.Calm t) : s.Calm (t.gaugeTail pos) := by
  unfold gaugeTail
  try dsimp only
  repeat' (first | exact h | with_reducible apply gaugedStrip_calm | split)
  all_goals exact h.same

theorem overlength_calm {lead : Pos} (h : s.Calm t) : s.Calm (t.overlength lead) := by
  have k : s.Calm ({ t with gauge := .overlong }.countGauged) := countGauged_calm h.same
  unfold overlength
  dsimp only
  split
  · exact countUntracked_calm k
  · exact modCounters_calm (allocate_calm k ‹_›)

theorem stray_calm {x : Sec} {k : Fin 3} (h : s.Calm t) : s.Calm (t.stray x k) := by
  unfold stray
  try dsimp only
  repeat' (first | exact h | exact id | with_reducible apply offer_calm | with_reducible apply modCounters_calm
                 | with_reducible apply modSec_calm)

theorem matched_calm {x y : Sec} {i : Fin 64} {pos : Pos} (h : s.Calm t) (mem : i ∈ t.list x) (ne : x ≠ y) :
    s.Calm (t.matched x y i pos) := by
  have k : s.Calm (((t.setList x ((t.list x).erase i)).setList y
      ((t.setList x ((t.list x).erase i)).list y ++ [i])).writeRecord i
        (fun r => { r with loc := locOf y, lead := pos })) := by
    unfold writeRecord
    split
    · exact h.trans ⟨rfl, rfl, id, id, id, id, id, id, handoff_lists rfl mem ne, fun _ => rfl⟩
    · rename_i hl
      refine h.trans ⟨rfl, rfl, id, id, id, id, id, id, fun k => absurd ?_ hl, fun _ => rfl⟩
      have := (k.onSec x i).1 mem
      refine live_iff.2 ?_
      show (t.pool.records[i]).loc ≠ _
      rw [this]; cases x <;> simp [locOf]
  unfold matched
  dsimp only
  split
  · exact endMatch_calm (modSec_calm k id)
  · exact modSec_calm k id

theorem handoffEdge_calm {x y : Sec} {k : Fin 3} {pos : Pos} (n : Nat) {t : State} (h : s.Calm t) (ne : x ≠ y) :
    s.Calm (handoffEdge x y k pos n t) := by
  induction n generalizing t with
  | zero => exact stray_calm h
  | succ n ih =>
    unfold handoffEdge
    split
    · exact stray_calm h
    · rename_i e
      repeat' split
      · exact stray_calm h
      · exact matched_calm h (by simp [e]) ne
      · exact ih (lose_calm h)
      · exact stray_calm h

theorem joinWatch_calm {i : Fin 64} {pos : Pos} (h : s.Calm t) : s.Calm (t.joinWatch i pos) := by
  unfold joinWatch
  try dsimp only
  repeat' (first | exact h | with_reducible apply modCuts_calm | split)

theorem tailEdge_calm {x : Sec} {pos : Pos} (h : s.Calm t) : s.Calm (t.tailEdge x pos) := by
  unfold tailEdge
  try dsimp only
  repeat' (first | exact h | exact fun _ => rfl | exact id | with_reducible apply joinWatch_calm
                 | with_reducible apply lengthCheck_calm | with_reducible apply writeRecord_calm
                 | with_reducible apply modSec_calm | split)

theorem followEdge_calm {x : Sec} {lead : Bool} {pos : Pos} (h : s.Calm t) : s.Calm (t.followEdge x lead pos) := by
  unfold followEdge
  split
  · exact gaugeLead_calm h
  · exact gaugeTail_calm h
  · exact handoffEdge_calm _ h (by decide)
  · exact handoffEdge_calm _ h (by decide)
  · exact handoffEdge_calm _ h (by decide)
  all_goals exact tailEdge_calm h

theorem confirmEye_calm {x : Sec} {e : PendingEye} (h : s.Calm t) : s.Calm (t.confirmEye x e) := by
  unfold confirmEye
  try dsimp only
  repeat' (first | exact h | exact id | with_reducible apply followEdge_calm | with_reducible apply modSec_calm
                 | split)

theorem runOff_calm {i : Fin 64} (h : s.Calm t) : s.Calm (t.runOff i) := by
  unfold runOff
  try dsimp only
  repeat' (first | exact h | with_reducible apply lose_calm | with_reducible apply release_calm
                 | with_reducible apply offer_calm | with_reducible apply modCounters_calm | split)

theorem act_calm {d : Due} (h : s.Calm t) : s.Calm (t.act d) := by
  unfold act
  try dsimp only
  repeat' (first | exact h | with_reducible apply runOff_calm | with_reducible apply confirmEye_calm
                 | with_reducible apply overlength_calm | with_reducible apply sortCommit_calm
                 | with_reducible apply commitEvent_calm | with_reducible apply fireEntry_calm
                 | with_reducible apply lose_calm | split)

theorem settle_calm {stepped : Option Sec} (n : Nat) {t : State} (h : s.Calm t) : s.Calm (settle stepped n t) := by
  induction n generalizing t with
  | zero => exact h
  | succ n ih =>
    unfold settle
    split
    · exact h
    · exact ih (act_calm h)
    · exact ih (act_calm h.same)

theorem foldl_release_calm (l : List (Fin 64)) {t : State} (h : s.Calm t) :
    s.Calm (l.foldl (fun s i => s.release i) t) := by
  induction l generalizing t with
  | nil => exact h
  | cons i l ih => exact ih (release_calm h)

theorem releaseAll_calm (h : s.Calm t) : s.Calm t.releaseAll := foldl_release_calm _ h

theorem emptyQueues_calm (h : s.Calm t) : s.Calm t.emptyQueues := by
  have k : s.Calm ((t.modSecs (fun u => { u with schedule := [] })).modCuts
      (fun c => { c with cutSet := [], watch := [] })) := modCuts_calm (modSecs_calm h fun _ _ => by simp)
  exact k.trans ⟨rfl, rfl, id, fun e => (List.length_take_le _ _).trans (by decide), id, id, id, id, id, fun _ => rfl⟩

theorem enterHalt_calm {reason : HaltReason} {cause : RunCause} (h : s.Calm t) : s.Calm (t.enterHalt reason cause) := by
  unfold enterHalt
  try dsimp only
  repeat' (first | exact h | with_reducible apply emptyQueues_calm | with_reducible apply releaseAll_calm
                 | with_reducible apply stopFollowing_calm | with_reducible apply modRun_calm
                 | with_reducible apply reportRun_calm | with_reducible apply bankCommit_calm
                 | with_reducible apply setReasons_calm | with_reducible apply feedLine_calm
                 | with_reducible apply outputsSafe_calm)

theorem followMark_calm {x : Sec} (h : s.Calm t) : s.Calm (t.followMark x) := by
  unfold followMark
  try dsimp only
  repeat' (first | exact h | exact id | with_reducible apply modSec_calm)

theorem stepForward_calm {x : Sec} (h : s.Calm t) : s.Calm (t.stepForward x) := by
  unfold stepForward
  try dsimp only
  repeat' (first | exact h | exact id | with_reducible apply followMark_calm | with_reducible apply settle_calm
                 | with_reducible apply modSec_calm | split)

theorem stepBackward_calm {x : Sec} (h : s.Calm t) : s.Calm (t.stepBackward x) := by
  unfold stepBackward
  try dsimp only
  repeat' (first | exact h | exact id | with_reducible apply followMark_calm | with_reducible apply enterHalt_calm
                 | with_reducible apply modSec_calm | split)

theorem rawStep_calm {x : Sec} {forward : Bool} (h : s.Calm t) : s.Calm (t.rawStep x forward) := by
  unfold rawStep
  try dsimp only
  repeat' (first | exact h | exact id | with_reducible apply stepBackward_calm
                 | with_reducible apply stepForward_calm | with_reducible apply modSec_calm | split)

theorem eyeInput_calm {x : Sec} {blocked : Bool} (h : s.Calm t) : s.Calm (t.eyeInput x blocked) := by
  unfold eyeInput
  try dsimp only
  repeat' (first | exact h | exact id | with_reducible apply settle_calm | with_reducible apply confirmEye_calm
                 | with_reducible apply modSec_calm | split)
  all_goals exact h.same

theorem syncProfileHold_calm  (h : s.Calm t) : s.Calm (t.syncProfileHold) := by
  unfold syncProfileHold
  try dsimp only
  repeat' (first | exact h | with_reducible apply setReasons_calm)

theorem moveTrend_calm {new : TrendState} {tag : Nat} (h : s.Calm t) : s.Calm (t.moveTrend new tag) := by
  unfold moveTrend
  try dsimp only
  repeat' (first | exact h | with_reducible apply syncProfileHold_calm | with_reducible apply modCheck_calm
                 | with_reducible apply offer_calm | split)

theorem trendTest_calm {tag : Nat} (h : s.Calm t) : s.Calm (t.trendTest tag) := by
  unfold trendTest
  try dsimp only
  repeat' (first | exact h | with_reducible apply moveTrend_calm)

theorem updateTrends_calm {d : Vector Int 4} (h : s.Calm t) : s.Calm (t.updateTrends d) := by
  unfold updateTrends
  try dsimp only
  repeat' (first | exact h | with_reducible apply modCheck_calm)

theorem judgeStrip_calm {i : Fin 64} {d : Vector Int 4} (h : s.Calm t) : s.Calm (t.judgeStrip i d) := by
  unfold judgeStrip
  try dsimp only
  repeat' (first | exact h | exact fun _ => rfl | with_reducible apply modCheck_calm
                 | with_reducible apply writeDisposition_calm | with_reducible apply writeRecord_calm | split)

theorem takeProfileValues_calm {i : Fin 64} {v : Vector Nat 4} (h : s.Calm t) : s.Calm (t.takeProfileValues i v) := by
  unfold takeProfileValues
  try dsimp only
  repeat' (first | exact h | exact fun _ => rfl | with_reducible apply judgeStrip_calm
                 | with_reducible apply updateTrends_calm | with_reducible apply trendTest_calm
                 | with_reducible apply writeRecord_calm | split)

theorem headFrame_calm {h' : Head} {bad : Bool} (h : s.Calm t) : s.Calm (t.headFrame h' bad) := by
  unfold headFrame
  try dsimp only
  repeat' (first | exact h | with_reducible apply setHead_calm | with_reducible apply offer_calm | split)

theorem badFrame_calm {h' : Option Head} (h : s.Calm t) : s.Calm (t.badFrame h') := by
  unfold badFrame
  try dsimp only
  repeat' (first | exact h | with_reducible apply headFrame_calm | split)

theorem scanLinkError_calm {h' : Option Head} (h : s.Calm t) : s.Calm (t.scanLinkError h') := by
  unfold scanLinkError
  try dsimp only
  repeat' (first | exact h | exact id | with_reducible apply badFrame_calm | with_reducible apply modScan_calm)

theorem intakeOffer_calm {f : Frame} (h : s.Calm t) : s.Calm (t.intakeOffer f) := by
  unfold intakeOffer
  split
  · rename_i k
    exact modScan_calm h id fun _ => by simpa using k
  · exact modScan_calm h id id

theorem malformed_calm {f : Frame} (h : s.Calm t) : s.Calm (t.malformed f) := by
  unfold malformed
  try dsimp only
  repeat' (first | exact h | with_reducible apply scanLinkError_calm)

theorem unknownTag_calm {h' : Head} (h : s.Calm t) : s.Calm (t.unknownTag h') := by
  unfold unknownTag
  try dsimp only
  repeat' (first | exact h | exact id | with_reducible apply headFrame_calm | with_reducible apply modScan_calm)

theorem lateFrame_calm {h' : Head} (h : s.Calm t) : s.Calm (t.lateFrame h') := by
  unfold lateFrame
  try dsimp only
  repeat' (first | exact h | exact id | with_reducible apply headFrame_calm | with_reducible apply modScan_calm)

theorem setFace_loc (r : Record) (f : Face) (st : FaceStatus) : (r.setFace f st).loc = r.loc := by
  cases f <;> rfl

theorem spoilFace_calm {i : Fin 64} {f : Face} {st : FaceStatus} (h : s.Calm t) : s.Calm (t.spoilFace i f st) :=
  markUnscanned_calm (writeRecord_calm h fun r => setFace_loc r f st)

theorem modTally_calm {i : Fin 64} {f : Face} {g : Tally → Tally} (h : s.Calm t) : s.Calm (t.modTally i f g) := by
  unfold modTally
  try dsimp only
  repeat' (first | exact h | exact id | with_reducible apply modScan_calm)

theorem joinDefect_calm {i : Fin 64} {f : Face} {d : RawDefect} (h : s.Calm t) : s.Calm (t.joinDefect i f d) := by
  unfold joinDefect
  try dsimp only
  repeat' (first | exact h | exact fun _ => rfl | with_reducible apply modTally_calm
                 | with_reducible apply writeRecord_calm)

theorem attachDefects_calm {i : Fin 64} {f : Face} (ds : List RawDefect) {t : State} (h : s.Calm t) :
    s.Calm (attachDefects i f ds t) := by
  induction ds generalizing t with
  | nil => exact h
  | cons d ds ih =>
    unfold attachDefects
    split
    · exact ih (joinDefect_calm h)
    · exact spoilFace_calm h

theorem attachFrame_calm {i : Fin 64} {d : DefectsFrame} (h : s.Calm t) : s.Calm (t.attachFrame i d) := by
  unfold attachFrame
  try dsimp only
  repeat' (first | exact h | with_reducible apply attachDefects_calm | with_reducible apply modTally_calm | split)

theorem takeDefects_calm {f : Frame} (h : s.Calm t) : s.Calm (t.takeDefects f) := by
  unfold takeDefects
  try dsimp only
  repeat' (first | exact h | with_reducible apply attachFrame_calm | with_reducible apply spoilFace_calm
                 | with_reducible apply lateFrame_calm | with_reducible apply unknownTag_calm
                 | with_reducible apply malformed_calm | with_reducible apply headFrame_calm | split)

theorem completionTest_calm {i : Fin 64} (h : s.Calm t) : s.Calm (t.completionTest i) := by
  unfold completionTest
  try dsimp only
  repeat' (first | exact h | with_reducible apply solverJoin_calm | split)

theorem closeFace_calm {i : Fin 64} {f : Face} {total : Nat} (h : s.Calm t) : s.Calm (t.closeFace i f total) := by
  unfold closeFace
  split
  · exact headFrame_calm (completionTest_calm (writeRecord_calm h fun r => setFace_loc r f .complete))
  · exact headFrame_calm (spoilFace_calm h)

theorem takeScanEnd_calm {f : Frame} (h : s.Calm t) : s.Calm (t.takeScanEnd f) := by
  unfold takeScanEnd
  try dsimp only
  repeat' (first | exact h | with_reducible apply closeFace_calm | with_reducible apply spoilFace_calm
                 | with_reducible apply lateFrame_calm | with_reducible apply unknownTag_calm
                 | with_reducible apply malformed_calm | with_reducible apply headFrame_calm | split)

theorem takeProfile_calm {f : Frame} (h : s.Calm t) : s.Calm (t.takeProfile f) := by
  unfold takeProfile
  try dsimp only
  repeat' (first | exact h | exact fun _ => rfl | with_reducible apply lateFrame_calm
                 | with_reducible apply unknownTag_calm | with_reducible apply malformed_calm
                 | with_reducible apply headFrame_calm | with_reducible apply takeProfileValues_calm
                 | with_reducible apply writeRecord_calm | split)

theorem takeFrame_calm {deal : Frame → State → State} (h : s.Calm t)
    (deals : ∀ (f : Frame) (u : State), s.Calm u → s.Calm (deal f u)) : s.Calm (t.takeFrame deal) := by
  unfold takeFrame
  split
  · exact h
  · rename_i e
    have k := modScan_calm (f := fun c => { c with queue := (t.scan.queue).tail }) h id fun k =>
      (List.length_tail (l := t.scan.queue)).trans_le ((Nat.sub_le _ _).trans k)
    simp only [e, List.tail_cons] at k
    dsimp only
    split
    · exact deals _ _ k
    · exact k

theorem enterRun_calm (h : s.Calm t) : s.Calm t.enterRun := by
  unfold enterRun
  refine reportRun_calm (setReasons_calm ?_)
  exact (modSecs_calm (f := fun u => { u with highMark := u.counter }) (modRun_calm h) fun _ => id).same

theorem returnToRun_calm  (h : s.Calm t) : s.Calm (t.returnToRun) := by
  unfold returnToRun
  try dsimp only
  repeat' (first | exact h | with_reducible apply modRun_calm | with_reducible apply reportRun_calm
                 | with_reducible apply setReasons_calm)

theorem enterDrain_calm  (h : s.Calm t) : s.Calm (t.enterDrain) := by
  unfold enterDrain
  try dsimp only
  repeat' (first | exact h | with_reducible apply drainTest_calm | with_reducible apply modRun_calm
                 | with_reducible apply reportRun_calm | with_reducible apply setReasons_calm)

theorem leaveHalt_calm  (h : s.Calm t) : s.Calm (t.leaveHalt) := by
  unfold leaveHalt
  try dsimp only
  repeat' (first | exact h | with_reducible apply stopFollowing_calm | with_reducible apply modRun_calm
                 | with_reducible apply reportRun_calm)

theorem putSection_calm {p : List Byte} (h : s.Calm t) : s.Calm (t.putSection p) := by
  unfold putSection
  try dsimp only
  repeat' (first | exact h | exact id | with_reducible apply modCuts_calm | with_reducible apply modSec_calm
                 | split)

theorem putOutput_calm {p : List Byte} (h : s.Calm t) : s.Calm (t.putOutput p) := by
  unfold putOutput
  try dsimp only
  repeat' (first | exact h | with_reducible apply feedLine_calm | with_reducible apply feedRequest_calm
                 | with_reducible apply modLine_calm | split)

theorem armed_guarded (t : State) (l k : Fin 24) (n : Nat) : (t.armed l k n).Guarded :=
  ⟨Combo.ne_complement _, fun e => by simp [armed] at e, fun _ => rfl, fun _ e => by simp [armed] at e⟩

theorem putPair_calm {p : List Byte} (h : s.Calm t) : s.Calm (t.putPair p) :=
  modLine_calm (modLine_calm (setPair_calm h fun _ r hr => by cases hr; exact armed_guarded _ _ _ _))

theorem modShadow_calm {f : BankTable → BankTable} (h : s.Calm t) : s.Calm (t.modShadow f) := by
  unfold modShadow
  try dsimp only
  repeat' (first | exact h | with_reducible apply setTable_calm)

theorem putProfile_calm {p : List Byte} (h : s.Calm t) : s.Calm (t.putProfile p) := by
  unfold putProfile
  try dsimp only
  repeat' (first | exact h | with_reducible apply trendTest_calm | with_reducible apply syncProfileHold_calm
                 | with_reducible apply modCheck_calm)

theorem clearTrends_calm  (h : s.Calm t) : s.Calm (t.clearTrends) := by
  unfold clearTrends
  try dsimp only
  repeat' (first | exact h | with_reducible apply moveTrend_calm | with_reducible apply syncProfileHold_calm
                 | with_reducible apply modCheck_calm)

theorem putPocket_calm {p : List Byte} (h : s.Calm t) : s.Calm (t.putPocket p) := by
  unfold putPocket
  try dsimp only
  repeat' (first | exact h | with_reducible apply movePocket_calm | with_reducible apply modPocket_calm | split)

theorem moveFeedLine_calm {former : Option (Fin 24)} (h : s.Calm t) : s.Calm (t.moveFeedLine former) := by
  unfold moveFeedLine
  try dsimp only
  repeat' (first | exact h | with_reducible apply feedLine_calm | with_reducible apply feedRequest_calm | split)

theorem putLine_calm {p : List Byte} (h : s.Calm t) : s.Calm (t.putLine p) := by
  unfold putLine
  try dsimp only
  repeat' (first | exact h | with_reducible apply moveFeedLine_calm | with_reducible apply modRun_calm
                 | with_reducible apply lowTest_calm | with_reducible apply feedLine_calm | split)

theorem putLabel_calm {p : List Byte} (h : s.Calm t) : s.Calm (t.putLabel p) := by
  unfold putLabel
  try dsimp only
  repeat' (first | exact h | exact id | with_reducible apply trySend_calm | with_reducible apply modLabels_calm
                 | split)

theorem zeroCounts_calm (h : s.Calm t) : s.Calm t.zeroCounts := by
  unfold zeroCounts
  exact (modSecs_calm (f := fun u => { u with edges := 0 }) h fun _ => id).same

theorem holdPocket_calm {n : Fin 12} (h : s.Calm t) : s.Calm (t.holdPocket n) := by
  unfold holdPocket
  try dsimp only
  repeat' (first | exact h | with_reducible apply movePocket_calm | with_reducible apply modPocket_calm)

theorem releasePocket_calm {n : Fin 12} (h : s.Calm t) : s.Calm (t.releasePocket n) := by
  unfold releasePocket
  try dsimp only
  repeat' (first | exact h | with_reducible apply closingTest_calm | with_reducible apply movePocket_calm
                 | with_reducible apply modPocket_calm | split)

theorem pauseLabels_calm  (h : s.Calm t) : s.Calm (t.pauseLabels) := by
  unfold pauseLabels
  try dsimp only
  repeat' (first | exact h | exact id | with_reducible apply modLabels_calm | split)

theorem requeueFault_calm  (h : s.Calm t) : s.Calm (t.requeueFault) := by
  unfold requeueFault
  try dsimp only
  repeat' (first | exact h | with_reducible apply modEntry_calm | split)

theorem resumeLabels_calm  (h : s.Calm t) : s.Calm (t.resumeLabels) := by
  unfold resumeLabels
  try dsimp only
  repeat' (first | exact h | exact id | with_reducible apply requeueFault_calm
                 | with_reducible apply leaveFault_calm | with_reducible apply enterIdle_calm
                 | with_reducible apply modLabels_calm | split)

theorem skipLabel_calm {serial : Nat} (h : s.Calm t) : s.Calm (t.skipLabel serial) := by
  unfold skipLabel
  try dsimp only
  repeat' (first | exact h | with_reducible apply leaveFault_calm | with_reducible apply modEntry_calm | split)

theorem reprintLabel_calm {serial : Nat} (h : s.Calm t) : s.Calm (t.reprintLabel serial) := by
  unfold reprintLabel
  try dsimp only
  repeat' (first | exact h | with_reducible apply leaveFault_calm | with_reducible apply trySend_calm
                 | with_reducible apply modEntry_calm | split)

theorem rawCount_calm {x : Sec} {phase : Phase} (h : s.Calm t) : s.Calm (t.rawCount x phase) := by
  unfold rawCount
  try dsimp only
  repeat' (first | exact h | with_reducible apply togglePhase_calm | with_reducible apply rawStep_calm)

theorem scanHunts_calm  (h : s.Calm t) : s.Calm (t.scanHunts) := by
  unfold scanHunts
  try dsimp only
  exact h.same

theorem storeSolution_calm {i : Fin 64} {v : Valued} (h : s.Calm t) : s.Calm (t.storeSolution i v) := by
  unfold storeSolution
  try dsimp only
  repeat' (first | exact h | exact fun _ => rfl | with_reducible apply modCounters_calm
                 | with_reducible apply writeRecord_calm)

theorem askPlace_calm {i : Fin 64} {g : Fin 8} {len : Nat} (h : s.Calm t) : s.Calm (t.askPlace i g len) := by
  unfold askPlace
  try dsimp only
  repeat' (first | exact h | with_reducible apply writeDisposition_calm | with_reducible apply reserve_calm
                 | split)

theorem solveOutcome_calm {i : Fin 64} {v : Valued} (h : s.Calm t) : s.Calm (t.solveOutcome i v) := by
  unfold solveOutcome
  try dsimp only
  repeat' (first | exact h | with_reducible apply askPlace_calm | with_reducible apply writeDisposition_calm
                 | split)

theorem noCandidate_calm {i : Fin 64} (h : s.Calm t) : s.Calm (t.noCandidate i) := by
  unfold noCandidate
  try dsimp only
  repeat' (first | exact h | exact fun _ => rfl | with_reducible apply writeDisposition_calm
                 | with_reducible apply writeRecord_calm)

theorem solverIdle_calm  (h : s.Calm t) : s.Calm (t.solverIdle) := by
  unfold solverIdle
  try dsimp only
  repeat' (first | exact h | with_reducible apply solverNext_calm | with_reducible apply modSolver_calm)

theorem solveComplete_calm  (h : s.Calm t) : s.Calm (t.solveComplete) := by
  unfold solveComplete
  try dsimp only
  repeat' (first | exact h | with_reducible apply solverIdle_calm | with_reducible apply noCandidate_calm
                 | with_reducible apply solveOutcome_calm | with_reducible apply storeSolution_calm | split)

theorem pulseEnds_calm {l : Fin 24} (h : s.Calm t) : s.Calm (t.pulseEnds l) := by
  unfold pulseEnds
  try dsimp only
  repeat' (first | exact h | with_reducible apply modLine_calm | with_reducible apply clockTo_calm | split)

theorem pullInEnds_calm {l : Fin 24} (h : s.Calm t) : s.Calm (t.pullInEnds l) := by
  unfold pullInEnds
  try dsimp only
  repeat' (first | exact h | with_reducible apply modLine_calm | with_reducible apply clockTo_calm | split)

theorem chopEnds_calm {l : Fin 24} (h : s.Calm t) : s.Calm (t.chopEnds l) := by
  unfold chopEnds
  try dsimp only
  repeat' (first | exact h | with_reducible apply modLine_calm | with_reducible apply clockTo_calm | split)

theorem deadTimeEnds_calm {p : Fin 6} (h : s.Calm t) : s.Calm (t.deadTimeEnds p) := by
  unfold deadTimeEnds
  split
  · exact h
  · rename_i q hq
    split
    · exact setPair_calm (clockTo_calm h) fun k r hr => by cases hr; exact (k p q hq).expire
    · exact h

theorem sawReady_calm  (h : s.Calm t) : s.Calm (t.sawReady) := by
  unfold sawReady
  try dsimp only
  repeat' (first | exact h | with_reducible apply clockTo_calm | split)
  all_goals exact h.same

theorem clearInput_calm {p : Fin 12} {active : Bool} (h : s.Calm t) : s.Calm (t.clearInput p active) := by
  unfold clearInput
  try dsimp only
  repeat' (first | exact h | with_reducible apply setClear_calm | split)
  all_goals exact h.same

theorem clearHeld_calm {p : Fin 12} (h : s.Calm t) : s.Calm (t.clearHeld p) := by
  unfold clearHeld
  try dsimp only
  repeat' (first | exact h | with_reducible apply setClear_calm | with_reducible apply clearEdge_calm
                 | with_reducible apply clockTo_calm | split)

theorem printerHunts_calm  (h : s.Calm t) : s.Calm (t.printerHunts) := by
  unfold printerHunts
  try dsimp only
  exact h.same

theorem printerError_calm  (h : s.Calm t) : s.Calm (t.printerError) := by
  unfold printerError
  try dsimp only
  repeat' (first | exact h | exact id | with_reducible apply printerHunts_calm
                 | with_reducible apply modLabels_calm)

theorem reportLabel_calm {serial : Nat} {event : LabelEvent} (h : s.Calm t) : s.Calm (t.reportLabel serial event) := by
  unfold reportLabel
  try dsimp only
  repeat' (first | exact h | with_reducible apply offer_calm | split)

theorem paceEnds_calm  (h : s.Calm t) : s.Calm (t.paceEnds) := by
  unfold paceEnds
  try dsimp only
  repeat' (first | exact h | with_reducible apply trySend_calm | with_reducible apply clockTo_calm | split)

theorem awaitAnswer_calm {serial : Nat} (h : s.Calm t) : s.Calm (t.awaitAnswer serial) := by
  unfold awaitAnswer
  try dsimp only
  repeat' (first | exact h | exact id | with_reducible apply reportLabel_calm | with_reducible apply modEntry_calm
                 | with_reducible apply modLabels_calm | split)

theorem transmissionEnds_calm  (h : s.Calm t) : s.Calm (t.transmissionEnds) := by
  unfold transmissionEnds
  try dsimp only
  repeat' (first | exact h | exact id | with_reducible apply awaitAnswer_calm | with_reducible apply endAwait_calm
                 | with_reducible apply trySend_calm | with_reducible apply modLabels_calm | split)

theorem unmatchedReply_calm  (h : s.Calm t) : s.Calm (t.unmatchedReply) := by
  unfold unmatchedReply
  try dsimp only
  repeat' (first | exact h | exact id | with_reducible apply modLabels_calm)

theorem stopAckTimer_calm  (h : s.Calm t) : s.Calm (t.stopAckTimer) := by
  unfold stopAckTimer
  try dsimp only
  repeat' (first | exact h | exact id | with_reducible apply modLabels_calm)

theorem acked_calm {serial : Nat} (h : s.Calm t) : s.Calm (t.acked serial) := by
  unfold acked
  try dsimp only
  repeat' (first | exact h | with_reducible apply stopAckTimer_calm | with_reducible apply reportLabel_calm
                 | with_reducible apply endAwait_calm | with_reducible apply modEntry_calm | split)

theorem copyFails_calm {serial : Nat} {cause : FailCause} {code : Byte} (h : s.Calm t) : s.Calm (t.copyFails serial cause code) := by
  unfold copyFails
  try dsimp only
  repeat' (first | exact h | with_reducible apply stopAckTimer_calm | with_reducible apply reportLabel_calm
                 | with_reducible apply endAwaitFailed_calm | with_reducible apply modEntry_calm)

theorem takeAck_calm {serial : Nat} (h : s.Calm t) : s.Calm (t.takeAck serial) := by
  unfold takeAck
  try dsimp only
  repeat' (first | exact h | with_reducible apply acked_calm | with_reducible apply unmatchedReply_calm | split)

theorem takeNak_calm {serial : Nat} {code : Byte} (h : s.Calm t) : s.Calm (t.takeNak serial code) := by
  unfold takeNak
  try dsimp only
  repeat' (first | exact h | with_reducible apply copyFails_calm | with_reducible apply unmatchedReply_calm
                 | split)

theorem ackExpires_calm  (h : s.Calm t) : s.Calm (t.ackExpires) := by
  unfold ackExpires
  try dsimp only
  repeat' (first | exact h | with_reducible apply copyFails_calm | with_reducible apply clockTo_calm | split)

theorem readyRises_calm  (h : s.Calm t) : s.Calm (t.readyRises) := by
  unfold readyRises
  try dsimp only
  repeat' (first | exact h | exact id | with_reducible apply trySend_calm | with_reducible apply modLabels_calm
                 | split)

theorem readyInput_calm {asserted : Bool} (h : s.Calm t) : s.Calm (t.readyInput asserted) := by
  unfold readyInput
  try dsimp only
  repeat' (first | exact h | with_reducible apply readyRises_calm | split)
  all_goals exact h.same

theorem stopRises_calm  (h : s.Calm t) : s.Calm (t.stopRises) := by
  unfold stopRises
  try dsimp only
  repeat' (first | exact h | exact id | with_reducible apply modEntry_calm | with_reducible apply modLabels_calm
                 | split)

theorem stopFalls_calm  (h : s.Calm t) : s.Calm (t.stopFalls) := by
  unfold stopFalls
  try dsimp only
  repeat' (first | exact h | with_reducible apply enterIdle_calm | split)

theorem stopInput_calm {asserted : Bool} (h : s.Calm t) : s.Calm (t.stopInput asserted) := by
  unfold stopInput
  try dsimp only
  repeat' (first | exact h | with_reducible apply stopFalls_calm | with_reducible apply stopRises_calm | split)
  all_goals exact h.same

theorem linkError_calm {link : Link} {h' : Option Head} (h : s.Calm t) : s.Calm (t.linkError link h') := by
  unfold linkError
  try dsimp only
  repeat' (first | exact h | with_reducible apply printerError_calm | with_reducible apply scanHunts_calm
                 | with_reducible apply scanLinkError_calm | split)
  all_goals exact h.same

end State

end Sys2Proof.Machine
end

