-- ==== Sys2Proof/Laws/Requests.lean ====
section
/-! SUPPORT. Requests: a request that passes its checks is acted on, one that fails is refused and changes nothing;
the arrival of a request at an empty queue; the reply; and what the answer to a request keeps. -/

namespace Sys2Proof.Machine

open Sys2Proof.Config

/-! ### Checks -/

/-- A request of the right length that passes its checks is acted on. -/
theorem handle_taken {len : Nat} {checks : List (Bool × Status)} {act : State → State × List Byte} {p : List Byte}
    {s : State} (length : p.length = len) (pass : ∀ c ∈ checks, c.1 = false) : handle len checks act p s = act s := by
  have hc : firstFail checks = none := by
    induction checks with
    | nil => rfl
    | cons c cs ih =>
      obtain ⟨b, st⟩ := c
      have hb : b = false := pass (b, st) (by simp)
      simpa [firstFail, hb] using ih fun d hd => pass d (by simp [hd])
  simp [handle, length, hc]

/-- A request is acted on, or refused with a status that is not OK and no change of state (R190). -/
theorem handle_cases (len : Nat) (checks : List (Bool × Status)) (act : State → State × List Byte) (p : List Byte)
    (s : State) : handle len checks act p s = act s ∨ ∃ st, handle len checks act p s = refuse st s := by
  unfold handle
  split
  · exact .inr ⟨_, rfl⟩
  · split
    · exact .inr ⟨_, rfl⟩
    · exact .inl rfl

/-- A property of states that the act keeps is kept by the request. -/
theorem handle_keeps {P : State → Prop} {len : Nat} {checks : List (Bool × Status)} {act : State → State × List Byte}
    {p : List Byte} {s : State} (h : P s) (k : P (act s).1) : P (handle len checks act p s).1 := by
  rcases handle_cases len checks act p s with e | ⟨st, e⟩
  · rw [e]; exact k
  · rw [e]; exact h

namespace State

/-! ### Arrival and reply -/

/-- A composed reply goes out at once on an idle transmitter, and otherwise waits (R191). -/
theorem handReply_eq (f : Frame) (payload : List Byte) (s : State) :
    s.handReply (replyFrame f payload) = s.replied f payload := by
  unfold handReply arbitrate replied replyFrame
  cases e : s.host.tx <;> simp [e]

/-- A request that arrives at an empty queue is taken at once (R189). -/
theorem hostArrive_empty {f : Frame} {s : State} (request : isRequest f = true) (empty : s.host.requests = []) :
    s.hostArrive f = ((s.arrived f).answer f).1.replied f ((s.arrived f).answer f).2 := by
  have e : ((s.modHost (fun h => { h with rxHost := .hunting })).modHost
      (fun h => { h with requests := h.requests ++ [f] })) = s.arrived f := by
    simp [modHost, arrived, empty]
  have l : s.host.requests.length < nRequests := by simp [empty]
  unfold hostArrive
  simp only [request, if_true, l, queueRequest, e]
  have r : ((s.modHost (fun h => { h with rxHost := .hunting })).host.requests.isEmpty) = true := by
    simp [modHost, empty]
  simp only [r, if_true]
  show (s.arrived f).takeHead = _
  simp only [takeHead, arrived, takeRequest, handReply_eq]

/-- A request that passes its checks at an empty queue. -/
theorem hostArrive_taken {kind id : Byte} {p : List Byte} {s : State} {act : State → State} {reply : List Byte}
    (request : isRequest ⟨kind, id, p⟩ = true) (empty : s.host.requests = [])
    (answer : (s.arrived ⟨kind, id, p⟩).answer ⟨kind, id, p⟩ = (act (s.arrived ⟨kind, id, p⟩), reply)) :
    s.hostArrive ⟨kind, id, p⟩ = s.taken kind id p act reply := by
  rw [hostArrive_empty request empty, answer]; rfl

/-- A request whose answer is `handle`, of the right length and past its checks, at an empty queue. -/
theorem hostArrive_handled {kind id : Byte} {p : List Byte} {s : State} {len : Nat} {checks : List (Bool × Status)}
    {act : State → State × List Byte} (request : isRequest ⟨kind, id, p⟩ = true) (empty : s.host.requests = [])
    (answer : (s.arrived ⟨kind, id, p⟩).answer ⟨kind, id, p⟩ = handle len checks act p (s.arrived ⟨kind, id, p⟩))
    (length : p.length = len) (pass : ∀ c ∈ checks, c.1 = false) :
    s.hostArrive ⟨kind, id, p⟩ = s.taken kind id p (fun u => (act u).1) (act (s.arrived ⟨kind, id, p⟩)).2 := by
  rw [hostArrive_empty request empty, answer, handle_taken length pass]; rfl

/-! ### What the answer to a request keeps -/

variable {s t : State}

theorem handReply_calm {f : Frame} (h : s.Calm t) : s.Calm (t.handReply f) := by
  unfold handReply
  exact arbitrate_calm (t := { t with host := { t.host with waiting := some f } }) h.same

set_option linter.unusedSimpArgs false
set_option linter.unusedTactic false
set_option linter.unreachableTactic false

theorem takeIdentify_calm {p : List Byte} (h : s.Calm t) : s.Calm (t.takeIdentify p).1 := by
  unfold takeIdentify
  try dsimp only
  refine handle_keeps (P := s.Calm) h ?_
  try simp only [okay, okaySet, okayWith, incomplete, refuse]
  exact h

theorem takeSetSection_calm {p : List Byte} (h : s.Calm t) : s.Calm (t.takeSetSection p).1 := by
  unfold takeSetSection
  try dsimp only
  refine handle_keeps (P := s.Calm) h ?_
  try simp only [okay, okaySet, okayWith, incomplete, refuse]
  repeat' (first | exact h | with_reducible apply putSection_calm | split)

theorem takeSetOutput_calm {p : List Byte} (h : s.Calm t) : s.Calm (t.takeSetOutput p).1 := by
  unfold takeSetOutput
  try dsimp only
  refine handle_keeps (P := s.Calm) h ?_
  try simp only [okay, okaySet, okayWith, incomplete, refuse]
  repeat' (first | exact h | with_reducible apply putOutput_calm | split)

theorem takeArmPair_calm {p : List Byte} (h : s.Calm t) : s.Calm (t.takeArmPair p).1 := by
  unfold takeArmPair
  try dsimp only
  refine handle_keeps (P := s.Calm) h ?_
  try simp only [okay, okaySet, okayWith, incomplete, refuse]
  repeat' (first | exact h | with_reducible apply putPair_calm | split)

theorem takeSetTrim_calm {p : List Byte} (h : s.Calm t) : s.Calm (t.takeSetTrim p).1 := by
  unfold takeSetTrim
  try dsimp only
  refine handle_keeps (P := s.Calm) h ?_
  try simp only [okay, okaySet, okayWith, incomplete, refuse]
  repeat' (first | exact h | with_reducible apply modShadow_calm | split)

theorem takeSetGrade_calm {p : List Byte} (h : s.Calm t) : s.Calm (t.takeSetGrade p).1 := by
  unfold takeSetGrade
  try dsimp only
  refine handle_keeps (P := s.Calm) h ?_
  try simp only [okay, okaySet, okayWith, incomplete, refuse]
  repeat' (first | exact h | with_reducible apply modShadow_calm | split)

theorem takeSetRules_calm {p : List Byte} (h : s.Calm t) : s.Calm (t.takeSetRules p).1 := by
  unfold takeSetRules
  try dsimp only
  refine handle_keeps (P := s.Calm) h ?_
  try simp only [okay, okaySet, okayWith, incomplete, refuse]
  repeat' (first | exact h | with_reducible apply modShadow_calm | split)

theorem takeSetPrices_calm {p : List Byte} (h : s.Calm t) : s.Calm (t.takeSetPrices p).1 := by
  unfold takeSetPrices
  try dsimp only
  refine handle_keeps (P := s.Calm) h ?_
  try simp only [okay, okaySet, okayWith, incomplete, refuse]
  repeat' (first | exact h | with_reducible apply modShadow_calm | split)

theorem takeCommitBank_calm {p : List Byte} (h : s.Calm t) : s.Calm (t.takeCommitBank p).1 := by
  unfold takeCommitBank
  try dsimp only
  refine handle_keeps (P := s.Calm) h ?_
  try simp only [okay, okaySet, okayWith, incomplete, refuse]
  repeat' (first | exact h | with_reducible apply modSolver_calm | with_reducible apply swapBanks_calm | split)

theorem takeSetProfile_calm {p : List Byte} (h : s.Calm t) : s.Calm (t.takeSetProfile p).1 := by
  unfold takeSetProfile
  try dsimp only
  refine handle_keeps (P := s.Calm) h ?_
  try simp only [okay, okaySet, okayWith, incomplete, refuse]
  repeat' (first | exact h | with_reducible apply putProfile_calm | split)

theorem takeClearTrend_calm {p : List Byte} (h : s.Calm t) : s.Calm (t.takeClearTrend p).1 := by
  unfold takeClearTrend
  try dsimp only
  refine handle_keeps (P := s.Calm) h ?_
  try simp only [okay, okaySet, okayWith, incomplete, refuse]
  repeat' (first | exact h | with_reducible apply clearTrends_calm | split)

theorem takeSetPocket_calm {p : List Byte} (h : s.Calm t) : s.Calm (t.takeSetPocket p).1 := by
  unfold takeSetPocket
  try dsimp only
  refine handle_keeps (P := s.Calm) h ?_
  try simp only [okay, okaySet, okayWith, incomplete, refuse]
  repeat' (first | exact h | with_reducible apply putPocket_calm | split)

theorem takeSetLine_calm {p : List Byte} (h : s.Calm t) : s.Calm (t.takeSetLine p).1 := by
  unfold takeSetLine
  try dsimp only
  refine handle_keeps (P := s.Calm) h ?_
  try simp only [okay, okaySet, okayWith, incomplete, refuse]
  repeat' (first | exact h | with_reducible apply putLine_calm | split)

theorem takeSetLabel_calm {p : List Byte} (h : s.Calm t) : s.Calm (t.takeSetLabel p).1 := by
  unfold takeSetLabel
  try dsimp only
  refine handle_keeps (P := s.Calm) h ?_
  try simp only [okay, okaySet, okayWith, incomplete, refuse]
  repeat' (first | exact h | with_reducible apply putLabel_calm | split)

theorem takeSetReports_calm {p : List Byte} (h : s.Calm t) : s.Calm (t.takeSetReports p).1 := by
  unfold takeSetReports
  try dsimp only
  refine handle_keeps (P := s.Calm) h ?_
  try simp only [okay, okaySet, okayWith, incomplete, refuse]
  exact h.same

theorem takeStartLine_calm {p : List Byte} (h : s.Calm t) : s.Calm (t.takeStartLine p).1 := by
  unfold takeStartLine
  try dsimp only
  refine handle_keeps (P := s.Calm) h ?_
  try simp only [okay, okaySet, okayWith, incomplete, refuse]
  repeat' (first | exact h | with_reducible apply enterRun_calm | with_reducible apply returnToRun_calm | split)

theorem takeStopLine_calm {p : List Byte} (h : s.Calm t) : s.Calm (t.takeStopLine p).1 := by
  unfold takeStopLine
  try dsimp only
  refine handle_keeps (P := s.Calm) h ?_
  try simp only [okay, okaySet, okayWith, incomplete, refuse]
  repeat' (first | exact h | with_reducible apply enterDrain_calm | split)

theorem takeHaltLine_calm {p : List Byte} (h : s.Calm t) : s.Calm (t.takeHaltLine p).1 := by
  unfold takeHaltLine
  try dsimp only
  refine handle_keeps (P := s.Calm) h ?_
  try simp only [okay, okaySet, okayWith, incomplete, refuse]
  repeat' (first | exact h | with_reducible apply enterHalt_calm | split)

theorem takeClearHalt_calm {p : List Byte} (h : s.Calm t) : s.Calm (t.takeClearHalt p).1 := by
  unfold takeClearHalt
  try dsimp only
  refine handle_keeps (P := s.Calm) h ?_
  try simp only [okay, okaySet, okayWith, incomplete, refuse]
  repeat' (first | exact h | with_reducible apply leaveHalt_calm | split)

theorem takeFeedHold_calm {p : List Byte} (h : s.Calm t) : s.Calm (t.takeFeedHold p).1 := by
  unfold takeFeedHold
  try dsimp only
  refine handle_keeps (P := s.Calm) h ?_
  try simp only [okay, okaySet, okayWith, incomplete, refuse]
  repeat' (first | exact h | with_reducible apply setReasons_calm | split)

theorem takeReset_calm {p : List Byte} (h : s.Calm t) : s.Calm (t.takeReset p).1 := by
  unfold takeReset
  try dsimp only
  refine handle_keeps (P := s.Calm) h ?_
  try simp only [okay, okaySet, okayWith, incomplete, refuse]
  exact h

theorem takeTestLevel_calm {p : List Byte} (h : s.Calm t) : s.Calm (t.takeTestLevel p).1 := by
  unfold takeTestLevel
  try dsimp only
  refine handle_keeps (P := s.Calm) h ?_
  try simp only [okay, okaySet, okayWith, incomplete, refuse]
  repeat' (first | exact h | with_reducible apply levelRequest_calm | split)

theorem takeTestPulse_calm {p : List Byte} (h : s.Calm t) : s.Calm (t.takeTestPulse p).1 := by
  unfold takeTestPulse
  try dsimp only
  refine handle_keeps (P := s.Calm) h ?_
  try simp only [okay, okaySet, okayWith, incomplete, refuse]
  repeat' (first | exact h | with_reducible apply pulseRequest_calm | split)

theorem takeTestTarget_calm {p : List Byte} (h : s.Calm t) : s.Calm (t.takeTestTarget p).1 := by
  unfold takeTestTarget
  try dsimp only
  refine handle_keeps (P := s.Calm) h ?_
  try simp only [okay, okaySet, okayWith, incomplete, refuse]
  repeat' (first | exact h | with_reducible apply targetRequest_calm | split)

theorem takeClosePocket_calm {p : List Byte} (h : s.Calm t) : s.Calm (t.takeClosePocket p).1 := by
  unfold takeClosePocket
  try dsimp only
  refine handle_keeps (P := s.Calm) h ?_
  try simp only [okay, okaySet, okayWith, incomplete, refuse]
  repeat' (first | exact h | with_reducible apply closeBundle_calm | split)

theorem takeHoldPocket_calm {p : List Byte} (h : s.Calm t) : s.Calm (t.takeHoldPocket p).1 := by
  unfold takeHoldPocket
  try dsimp only
  refine handle_keeps (P := s.Calm) h ?_
  try simp only [okay, okaySet, okayWith, incomplete, refuse]
  repeat' (first | exact h | with_reducible apply holdPocket_calm | split)

theorem takeReleasePocket_calm {p : List Byte} (h : s.Calm t) : s.Calm (t.takeReleasePocket p).1 := by
  unfold takeReleasePocket
  try dsimp only
  refine handle_keeps (P := s.Calm) h ?_
  try simp only [okay, okaySet, okayWith, incomplete, refuse]
  repeat' (first | exact h | with_reducible apply releasePocket_calm | split)

theorem takeClearPocket_calm {p : List Byte} (h : s.Calm t) : s.Calm (t.takeClearPocket p).1 := by
  unfold takeClearPocket
  try dsimp only
  refine handle_keeps (P := s.Calm) h ?_
  try simp only [okay, okaySet, okayWith, incomplete, refuse]
  repeat' (first | exact h | with_reducible apply clearBundle_calm | with_reducible apply clearBin_calm | split)

theorem takePauseLabels_calm {p : List Byte} (h : s.Calm t) : s.Calm (t.takePauseLabels p).1 := by
  unfold takePauseLabels
  try dsimp only
  refine handle_keeps (P := s.Calm) h ?_
  try simp only [okay, okaySet, okayWith, incomplete, refuse]
  repeat' (first | exact h | with_reducible apply pauseLabels_calm | split)

theorem takeResumeLabels_calm {p : List Byte} (h : s.Calm t) : s.Calm (t.takeResumeLabels p).1 := by
  unfold takeResumeLabels
  try dsimp only
  refine handle_keeps (P := s.Calm) h ?_
  try simp only [okay, okaySet, okayWith, incomplete, refuse]
  repeat' (first | exact h | with_reducible apply resumeLabels_calm | split)

theorem takeSkipLabel_calm {p : List Byte} (h : s.Calm t) : s.Calm (t.takeSkipLabel p).1 := by
  unfold takeSkipLabel
  try dsimp only
  refine handle_keeps (P := s.Calm) h ?_
  try simp only [okay, okaySet, okayWith, incomplete, refuse]
  repeat' (first | exact h | with_reducible apply skipLabel_calm | split)

theorem takeReprintLabel_calm {p : List Byte} (h : s.Calm t) : s.Calm (t.takeReprintLabel p).1 := by
  unfold takeReprintLabel
  try dsimp only
  refine handle_keeps (P := s.Calm) h ?_
  try simp only [okay, okaySet, okayWith, incomplete, refuse]
  repeat' (first | exact h | with_reducible apply reprintLabel_calm | split)

theorem takeGetState_calm {p : List Byte} (h : s.Calm t) : s.Calm (t.takeGetState p).1 := by
  unfold takeGetState
  try dsimp only
  refine handle_keeps (P := s.Calm) h ?_
  try simp only [okay, okaySet, okayWith, incomplete, refuse]
  exact h

theorem takeGetStrip_calm {p : List Byte} (h : s.Calm t) : s.Calm (t.takeGetStrip p).1 := by
  unfold takeGetStrip
  try dsimp only
  refine handle_keeps (P := s.Calm) h ?_
  try simp only [okay, okaySet, okayWith, incomplete, refuse]
  repeat' (first | exact h | split)

theorem takeGetPocket_calm {p : List Byte} (h : s.Calm t) : s.Calm (t.takeGetPocket p).1 := by
  unfold takeGetPocket
  try dsimp only
  refine handle_keeps (P := s.Calm) h ?_
  try simp only [okay, okaySet, okayWith, incomplete, refuse]
  exact h

theorem takeGetLabels_calm {p : List Byte} (h : s.Calm t) : s.Calm (t.takeGetLabels p).1 := by
  unfold takeGetLabels
  try dsimp only
  refine handle_keeps (P := s.Calm) h ?_
  try simp only [okay, okaySet, okayWith, incomplete, refuse]
  repeat' (first | exact h | split)

theorem takeGetCounts_calm {p : List Byte} (h : s.Calm t) : s.Calm (t.takeGetCounts p).1 := by
  unfold takeGetCounts
  try dsimp only
  refine handle_keeps (P := s.Calm) h ?_
  try simp only [okay, okaySet, okayWith, incomplete, refuse]
  exact h

theorem takeClearCounts_calm {p : List Byte} (h : s.Calm t) : s.Calm (t.takeClearCounts p).1 := by
  unfold takeClearCounts
  try dsimp only
  refine handle_keeps (P := s.Calm) h ?_
  try simp only [okay, okaySet, okayWith, incomplete, refuse]
  repeat' (first | exact h | with_reducible apply zeroCounts_calm | split)

theorem takeGetList_calm {p : List Byte} (h : s.Calm t) : s.Calm (t.takeGetList p).1 := by
  unfold takeGetList
  try dsimp only
  refine handle_keeps (P := s.Calm) h ?_
  try simp only [okay, okaySet, okayWith, incomplete, refuse]
  exact h

theorem takeTestOutput_calm {p : List Byte} (h : s.Calm t) : s.Calm (t.takeTestOutput p).1 := by
  unfold takeTestOutput
  split
  · exact takeTestLevel_calm h
  · exact takeTestPulse_calm h
  · exact takeTestTarget_calm h

/-- The answer to a request of any kind. -/
theorem answer_calm {f : Frame} (h : s.Calm t) : s.Calm (t.answer f).1 := by
  unfold answer
  split
  · exact takeIdentify_calm h
  · exact takeSetSection_calm h
  · exact takeSetOutput_calm h
  · exact takeArmPair_calm h
  · exact takeSetTrim_calm h
  · exact takeSetGrade_calm h
  · exact takeSetRules_calm h
  · exact takeSetPrices_calm h
  · exact takeCommitBank_calm h
  · exact takeSetProfile_calm h
  · exact takeSetPocket_calm h
  · exact takeSetLine_calm h
  · exact takeSetLabel_calm h
  · exact takeSetReports_calm h
  · exact takeStartLine_calm h
  · exact takeStopLine_calm h
  · exact takeHaltLine_calm h
  · exact takeClearHalt_calm h
  · exact takeFeedHold_calm h
  · exact takeReset_calm h
  · exact takeTestOutput_calm h
  · exact takeClosePocket_calm h
  · exact takeHoldPocket_calm h
  · exact takeReleasePocket_calm h
  · exact takeClearPocket_calm h
  · exact takePauseLabels_calm h
  · exact takeResumeLabels_calm h
  · exact takeSkipLabel_calm h
  · exact takeReprintLabel_calm h
  · exact takeClearTrend_calm h
  · exact takeGetState_calm h
  · exact takeGetStrip_calm h
  · exact takeGetPocket_calm h
  · exact takeGetLabels_calm h
  · exact takeGetCounts_calm h
  · exact takeClearCounts_calm h
  · exact takeGetList_calm h
  · exact h

end State

end Sys2Proof.Machine
end

