-- ==== Sys2Proof/Laws/Changes.lean ====
section
/-! SUPPORT. What the shared operations change: one lemma each, which names every component that the operation may
change, and with it what it leaves alone; and the results of the operations that have one result. -/

namespace Sys2Proof.Machine

open Sys2Proof.Config

namespace State

/-! ### Reports (R191, R192) -/

/-- The arbiter changes the transmitter and the waiting reply alone. -/
theorem arbitrate_changes (s : State) : ∃ tx w, s.arbitrate = { s with host := { s.host with tx := tx, waiting := w } } := by
  unfold arbitrate
  split
  · split
    · exact ⟨_, _, rfl⟩
    · split <;> exact ⟨_, _, rfl⟩
  · exact ⟨_, _, rfl⟩

/-- A report of a masked kind is dropped. -/
theorem offer_masked {s : State} {r : Report} (h : s.masked r = true) : s.offer r = s := by
  simp [offer, h]

/-- A report that finds no room is lost. -/
theorem offer_lost {s : State} {r : Report} (h : s.masked r = false) (k : s.hasRoom r = false) :
    s.offer r = { s with reports := { s.reports with lost := min 65535 (s.reports.lost + 1) } } := by
  simp [offer, h, k]

/-- A report that finds room joins the queue; on an idle transmitter the arbiter is asked. -/
theorem offer_admitted {s : State} {r : Report} (h : s.masked r = false) (k : s.hasRoom r = true) :
    (s.offer r).reports = { s.reports with
      queue := s.reports.queue ++ [⟨s.reports.seq, s.reports.lost, r⟩]
      seq := s.reports.seq + 1
      lost := 0 } := by
  unfold offer
  simp only [h, k, Bool.false_eq_true, if_false, if_true]
  split
  · obtain ⟨tx, w, e⟩ := arbitrate_changes (s.enqueueReport r)
    rw [e]; rfl
  · rfl

/-- Offering a report changes the report queue and the host link's transmitter alone. -/
theorem offer_changes (r : Report) (s : State) :
    ∃ q tx w, s.offer r = { s with reports := q, host := { s.host with tx := tx, waiting := w } } := by
  unfold offer
  split
  · exact ⟨_, _, _, rfl⟩
  · split
    · split
      · obtain ⟨tx, w, e⟩ := arbitrate_changes (s.enqueueReport r)
        exact ⟨_, tx, w, e⟩
      · exact ⟨_, _, _, rfl⟩
    · exact ⟨_, _, _, rfl⟩

/-! ### The output stage (R107, R118 to R128) -/

/-- A pulse changes its line, and the saw recovery timer when the line is the saw line. -/
theorem beginPulse_changes (l : Fin 24) (s : State) :
    ∃ saw, s.beginPulse l = { s with out := { s.out with
      lines := s.out.lines.set l ((s.line l).pulseFrom s.clock)
      saw := saw } } := by
  unfold beginPulse
  split <;> exact ⟨_, rfl⟩

/-- A level-on request changes its line and the saw recovery timer alone, and no configuration. -/
theorem levelOn_changes (l : Fin 24) (s : State) :
    ∃ x saw, s.levelOn l = { s with out := { s.out with lines := s.out.lines.set l x, saw := saw } }
      ∧ x.cfg = (s.line l).cfg := by
  unfold levelOn
  split
  · refine ⟨s.line l, s.out.saw, ?_, rfl⟩
    simp [line]
  · split
    · obtain ⟨saw, e⟩ := beginPulse_changes l s
      exact ⟨_, saw, e, rfl⟩
    · exact ⟨_, _, rfl, rfl⟩

/-- A level request changes its line and the saw recovery timer alone, and no configuration. -/
theorem levelRequest_changes (on : Bool) (l : Fin 24) (s : State) :
    ∃ x saw, s.levelRequest on l = { s with out := { s.out with lines := s.out.lines.set l x, saw := saw } }
      ∧ x.cfg = (s.line l).cfg := by
  cases on
  · exact ⟨_, _, rfl, rfl⟩
  · exact levelOn_changes l s

/-- The pair that a line belongs to is decided by the lines that the pairs bind. -/
theorem pairOf_congr {s t : State} (l : Fin 24)
    (h : ∀ p, (t.pair p).map (fun q => (q.first, q.second)) = (s.pair p).map (fun q => (q.first, q.second))) :
    t.pairOf l = s.pairOf l := by
  have e : ∀ (u : State), u.pairOf l = (List.finRange 6).find? (fun p =>
      ((u.pair p).map (fun q => (q.first, q.second))).any (fun v => decide (v.1 = l) || decide (v.2 = l))) := by
    intro u
    unfold pairOf
    refine congrArg (fun f => List.find? f _) (funext fun p => ?_)
    cases u.pair p <;> rfl
  rw [e, e]
  simp only [h]

theorem pairOf_of_pairs {s t : State} (l : Fin 24) (h : t.out.pairs = s.out.pairs) : t.pairOf l = s.pairOf l :=
  pairOf_congr l fun p => by simp [pair, h]

/-- The lines at entry to HALT and at soft reset. -/
theorem line_outputsSafe (keep : Option (Fin 24)) (l : Fin 24) (s : State) :
    (s.outputsSafe keep).line l = if keep = some l then s.line l else (s.line l).turnOff := by
  simp [line, outputsSafe]

@[simp] theorem outputsSafe_pins (keep : Option (Fin 24)) (s : State) : (s.outputsSafe keep).pins = s.pins := by
  simp [outputsSafe]
@[simp] theorem outputsSafe_pool (keep : Option (Fin 24)) (s : State) : (s.outputsSafe keep).pool = s.pool := by
  simp [outputsSafe]
@[simp] theorem outputsSafe_secs (keep : Option (Fin 24)) (s : State) : (s.outputsSafe keep).secs = s.secs := by
  simp [outputsSafe]
@[simp] theorem outputsSafe_cuts (keep : Option (Fin 24)) (s : State) : (s.outputsSafe keep).cuts = s.cuts := by
  simp [outputsSafe]
@[simp] theorem outputsSafe_gauge (keep : Option (Fin 24)) (s : State) : (s.outputsSafe keep).gauge = s.gauge := by
  simp [outputsSafe]
@[simp] theorem outputsSafe_scan (keep : Option (Fin 24)) (s : State) : (s.outputsSafe keep).scan = s.scan := by
  simp [outputsSafe]
@[simp] theorem outputsSafe_solver (keep : Option (Fin 24)) (s : State) : (s.outputsSafe keep).solver = s.solver := by
  simp [outputsSafe]
@[simp] theorem outputsSafe_check (keep : Option (Fin 24)) (s : State) : (s.outputsSafe keep).check = s.check := by
  simp [outputsSafe]
@[simp] theorem outputsSafe_pockets (keep : Option (Fin 24)) (s : State) : (s.outputsSafe keep).pockets = s.pockets := by
  simp [outputsSafe]
@[simp] theorem outputsSafe_clears (keep : Option (Fin 24)) (s : State) : (s.outputsSafe keep).clears = s.clears := by
  simp [outputsSafe]
@[simp] theorem outputsSafe_labels (keep : Option (Fin 24)) (s : State) : (s.outputsSafe keep).labels = s.labels := by
  simp [outputsSafe]
@[simp] theorem outputsSafe_run (keep : Option (Fin 24)) (s : State) : (s.outputsSafe keep).run = s.run := by
  simp [outputsSafe]
@[simp] theorem outputsSafe_reports (keep : Option (Fin 24)) (s : State) : (s.outputsSafe keep).reports = s.reports := by
  simp [outputsSafe]
@[simp] theorem outputsSafe_host (keep : Option (Fin 24)) (s : State) : (s.outputsSafe keep).host = s.host := by
  simp [outputsSafe]
@[simp] theorem outputsSafe_clock (keep : Option (Fin 24)) (s : State) : (s.outputsSafe keep).clock = s.clock := by
  simp [outputsSafe]
@[simp] theorem outputsSafe_choice (keep : Option (Fin 24)) (s : State) : (s.outputsSafe keep).choice = s.choice := by
  simp [outputsSafe]
@[simp] theorem outputsSafe_pending (keep : Option (Fin 24)) (s : State) : (s.outputsSafe keep).pending = s.pending := by
  simp [outputsSafe]

/-! ### Feed hold (R181, R182) -/

/-- A level request to the feed-hold line changes the output stage, the report queue and the host link's
transmitter alone; no pair and no configuration of a line changes. -/
theorem feedRequest_changes (on : Bool) (l : Fin 24) (s : State) :
    ∃ x saw q tx w, s.feedRequest on l = { s with
        out := { s.out with lines := s.out.lines.set l x, saw := saw }
        reports := q
        host := { s.host with tx := tx, waiting := w } }
      ∧ x.cfg = (s.line l).cfg := by
  unfold feedRequest
  split
  · obtain ⟨q, tx, w, e⟩ := offer_changes (.lineInPair .runControl 0 l ‹_›) s
    refine ⟨s.line l, s.out.saw, q, tx, w, ?_, rfl⟩
    rw [e]; simp [line]
  · obtain ⟨x, saw, e, c⟩ := levelRequest_changes on l s
    exact ⟨x, saw, _, _, _, e, c⟩

/-- A change of the feed-hold reasons stores them, and changes the output stage, the report queue and the host link's
transmitter alone; no pair and no configuration of a line changes. -/
theorem setReasons_changes (f : HoldReasons → HoldReasons) (s : State) :
    ∃ lines saw q tx w, s.setReasons f = { s with
        run := { s.run with reasons := f s.run.reasons }
        out := { s.out with lines := lines, saw := saw }
        reports := q
        host := { s.host with tx := tx, waiting := w } }
      ∧ (∀ l : Fin 24, lines[l].cfg = (s.line l).cfg)
      ∧ (∀ l : Fin 24, s.run.settings.feedLine ≠ some l → lines[l] = s.line l) := by
  unfold setReasons
  simp only
  split
  · exact ⟨s.out.lines, _, _, _, _, rfl, fun _ => rfl, fun _ _ => rfl⟩
  · unfold feedLine
    split
    · rename_i l hl
      obtain ⟨x, saw, q, tx, w, e, c⟩ := feedRequest_changes (f s.run.reasons).any l
        { s with run := { s.run with reasons := f s.run.reasons } }
      refine ⟨_, saw, q, tx, w, e, fun k => ?_, fun k hk => ?_⟩
      · by_cases hkl : k = l
        · subst hkl
          have c' : x.cfg = (s.line k).cfg := c
          simpa using c'
        · have hv : l.val ≠ k.val := fun e => hkl (Fin.ext e.symm)
          simp [line, hv]
      · have hv : l.val ≠ k.val := by
          intro e
          have : l = k := Fin.ext e
          subst this
          exact hk hl
        simp [line, hv]
    · exact ⟨s.out.lines, _, _, _, _, rfl, fun _ => rfl, fun _ _ => rfl⟩

/-! ### The bank commit (R75) -/

/-- A bank commit changes the solver alone: not its banks, its queue or its solve in flight. -/
theorem bankCommit_changes (s : State) : s.bankCommit = { s with solver := { s.solver with
    active := if s.solver.commitPending then s.solver.active.other else s.solver.active
    commitPending := false } } := by
  unfold bankCommit
  cases h : s.solver.commitPending
  · simp
    rw [← h]
  · rfl

/-! ### Head counters (R58, R59) -/

/-- A good frame of a NORMAL head whose counter stays below the limit. -/
theorem headFrame_good {s : State} {h : Head} (run : s.running = true) (normal : (s.head h).degraded = false)
    (few : (s.head h).errors ≤ 40) :
    s.headFrame h false = s.setHead h { errors := (s.head h).errors - 1, degraded := false } := by
  have : ¬ 40 ≤ (s.head h).errors - 1 := by omega
  simp [headFrame, run, HeadUnit.after, HeadUnit.count, normal, this]

/-- A bad frame of a NORMAL head whose counter stays below the limit. -/
theorem headFrame_bad {s : State} {h : Head} (run : s.running = true) (normal : (s.head h).degraded = false)
    (few : (s.head h).errors < 36) :
    s.headFrame h true = s.setHead h { errors := (s.head h).errors + 4, degraded := false } := by
  have h1 : ¬ 40 ≤ (s.head h).errors + 4 := by omega
  have h2 : min 63 ((s.head h).errors + 4) = (s.head h).errors + 4 := by omega
  simp [headFrame, run, HeadUnit.after, HeadUnit.count, normal, h1, h2]

/-- In RUN and DRAIN a frame of a head is judged (R58, R59). -/
theorem headFrame_judged {s : State} {h : Head} {bad : Bool} (run : s.running = true) :
    s.headFrame h bad = s.judged h bad := by
  rcases e : s.head h with ⟨n, d⟩
  generalize m : (if bad = true then min 63 (n + 4) else n - 1) = k
  cases d with
  | false => by_cases hk : 40 ≤ k <;> simp [headFrame, judged, run, e, m, HeadUnit.after, HeadUnit.count, hk]
  | true => by_cases hk : k ≤ 8 <;> simp [headFrame, judged, run, e, m, HeadUnit.after, HeadUnit.count, hk]

/-- A frame moves its head, and can change the report queue and the host link's transmitter. -/
theorem headFrame_changes (h : Head) (bad : Bool) (s : State) :
    ∃ u q tx w, s.headFrame h bad = { s.setHead h u with
      reports := q
      host := { s.host with tx := tx, waiting := w } } := by
  unfold headFrame
  split
  · simp only
    split
    · refine ⟨(s.head h).after bad, s.reports, s.host.tx, s.host.waiting, ?_⟩
      cases h <;> rfl
    · obtain ⟨q, tx, w, e⟩ := offer_changes (.link h ((s.head h).after bad).degraded ((s.head h).after bad).errors)
        (s.setHead h ((s.head h).after bad))
      refine ⟨(s.head h).after bad, q, tx, w, ?_⟩
      rw [e]
      cases h <;> rfl
  · refine ⟨s.head h, s.reports, s.host.tx, s.host.waiting, ?_⟩
    cases h <;> rfl

/-- A tag names a live record. -/
theorem live_of_findTag {s : State} {n : Nat} {i : Fin 64} (h : s.findTag n = some i) :
    s.live i = true ∧ (s.record i).tag = n := by
  unfold findTag at h
  split at h
  · simp at h
  · simpa using List.find?_some h

/-! ### The label channel (R159 to R165) -/

/-- The test for a send changes the label channel alone. -/
theorem trySend_changes (s : State) : ∃ c, s.trySend = { s with labels := c } := by
  unfold trySend
  split
  · split <;> exact ⟨_, rfl⟩
  · exact ⟨_, rfl⟩

/-- No send starts in a state other than IDLE. -/
theorem trySend_of_state {s : State} (h : s.labels.state ≠ .idle) : s.trySend = s := by
  simp [trySend, h]

/-- No send starts without a QUEUED entry. -/
theorem trySend_of_empty {s : State} (h : s.firstQueued = none) : s.trySend = s := by
  simp [trySend, h]

/-- A send starts. -/
theorem trySend_starts {s : State} {e : LabelEntry} (h : s.firstQueued = some e) (idle : s.labels.state = .idle)
    (wire : s.labels.wire = none) (flow : s.flowPermits = true) : s.trySend = s.startSend e := by
  simp [trySend, h, idle, wire, flow]

/-- The entry to IDLE changes the label channel alone. -/
theorem enterIdle_changes (s : State) : ∃ c, s.enterIdle = { s with labels := c } := by
  unfold enterIdle
  split
  · exact ⟨_, rfl⟩
  · obtain ⟨c, e⟩ := trySend_changes (s.modLabels (fun c => { c with state := .idle }))
    exact ⟨c, e⟩

/-! ### Soft reset (R199) -/

theorem softBlocks_pins (s : State) : s.softBlocks.pins = s.pins := by simp [softBlocks, outputsSafe]
theorem softBlocks_clock (s : State) : s.softBlocks.clock = s.clock := by simp [softBlocks, outputsSafe]
theorem softBlocks_choice (s : State) : s.softBlocks.choice = s.choice := by simp [softBlocks, outputsSafe]
theorem softBlocks_pending (s : State) : s.softBlocks.pending = s.pending := by simp [softBlocks, outputsSafe]

theorem softBlocks_pair (p : Fin 6) (s : State) : s.softBlocks.pair p = (s.pair p).map Pair.rest := by
  simp [pair, softBlocks, outputsSafe]

theorem softBlocks_line (l : Fin 24) (s : State) : s.softBlocks.line l = (s.line l).turnOff := by
  simp [line, softBlocks, outputsSafe]

theorem softBlocks_feedLine (s : State) : s.softBlocks.run.settings.feedLine = s.run.settings.feedLine := by
  simp [softBlocks]

theorem softBlocks_pairOf (l : Fin 24) (s : State) : s.softBlocks.pairOf l = s.pairOf l :=
  pairOf_congr (s := s) (t := s.softBlocks) l fun p => by rw [softBlocks_pair]; cases s.pair p <;> simp [Pair.rest]

/-- A level-on request, line by line. -/
theorem levelOn_lines (m : Fin 24) (s : State) :
    ∃ lines saw, s.levelOn m = { s with out := { s.out with lines := lines, saw := saw } }
      ∧ (∀ l : Fin 24, lines[l].cfg = (s.line l).cfg) ∧ (∀ l : Fin 24, l ≠ m → lines[l] = s.line l) := by
  obtain ⟨x, saw, e, c⟩ := levelOn_changes m s
  refine ⟨_, saw, e, fun l => ?_, fun l hl => ?_⟩
  · by_cases k : l = m
    · subst k; simpa using c
    · have hv : m.val ≠ l.val := fun e => k (Fin.ext e.symm)
      simp [line, hv]
  · have hv : m.val ≠ l.val := fun e => hl (Fin.ext e.symm)
    simp [line, hv]

/-- No change, line by line. -/
theorem still_lines (s : State) :
    ∃ lines saw, s = { s with out := { s.out with lines := lines, saw := saw } }
      ∧ (∀ l : Fin 24, lines[l].cfg = (s.line l).cfg) ∧ (∀ l : Fin 24, lines[l] = s.line l) :=
  ⟨s.out.lines, s.out.saw, rfl, fun _ => rfl, fun _ => rfl⟩

/-- After the blocks, a soft reset can only move the feed-hold line and start the saw recovery timer. -/
theorem softReset_changes (s : State) :
    ∃ lines saw, s.softReset = { s.softBlocks with out := { s.softBlocks.out with lines := lines, saw := saw } }
      ∧ (∀ l : Fin 24, lines[l].cfg = (s.line l).cfg)
      ∧ (∀ l : Fin 24, s.run.settings.feedLine ≠ some l → lines[l] = (s.line l).turnOff) := by
  have cfg : ∀ l : Fin 24, (s.softBlocks.line l).cfg = (s.line l).cfg := fun l => by rw [softBlocks_line]; rfl
  have off := fun l => softBlocks_line l s
  have feed := softBlocks_feedLine s
  have bound := fun l => softBlocks_pairOf l s
  unfold softReset softFeedHold
  generalize s.softBlocks = t at *
  rw [feed]
  obtain ⟨lines, saw, e, c, o⟩ := still_lines t
  cases h : s.run.settings.feedLine with
  | none => exact ⟨lines, saw, e, fun l => (c l).trans (cfg l), fun l _ => (o l).trans (off l)⟩
  | some m =>
    simp only
    split
    · exact ⟨lines, saw, e, fun l => (c l).trans (cfg l), fun l _ => (o l).trans (off l)⟩
    · obtain ⟨lines, saw, e, c, o⟩ := levelOn_lines m t
      exact ⟨lines, saw, e, fun l => (c l).trans (cfg l),
        fun l hl => (o l (fun k => hl (by rw [k]))).trans (off l)⟩

end State

end Sys2Proof.Machine
end

