-- ==== Sys2Proof/Laws/Check.lean ====
section
/-! SUPPORT. What each shared operation does to the profile check: all but a strip's test, SET_PROFILE, CLEAR_TREND,
CLEAR_COUNTS and the resets leave it as it is. -/

namespace Sys2Proof.Machine

open Sys2Proof.Config

namespace State

@[simp] theorem startSaw_check (s : State) : s.startSaw.check = s.check := by simp [startSaw]

@[simp] theorem arbitrate_check (s : State) : s.arbitrate.check = s.check := by
  unfold arbitrate
  repeat' split
  all_goals simp

@[simp] theorem offer_check (r : Report) (s : State) : (s.offer r).check = s.check := by
  unfold offer
  repeat' split
  all_goals simp

@[simp] theorem targetRequest_check (src : Source) (n : Nat) (p : Fin 6) (c : Combo) (s : State) :
    (s.targetRequest src n p c).check = s.check := by
  unfold targetRequest
  repeat' split
  all_goals simp

@[simp] theorem toFree_check (i : Fin 64) (s : State) : (s.toFree i).check = s.check := by simp [toFree]

@[simp] theorem beginPulse_check (l : Fin 24) (s : State) : (s.beginPulse l).check = s.check := by
  unfold beginPulse; split <;> simp

@[simp] theorem pulseRequest_check (l : Fin 24) (s : State) : (s.pulseRequest l).check = s.check := by
  unfold pulseRequest; split <;> simp

@[simp] theorem levelOn_check (l : Fin 24) (s : State) : (s.levelOn l).check = s.check := by
  unfold levelOn
  repeat' split
  all_goals simp

@[simp] theorem levelOff_check (l : Fin 24) (s : State) : (s.levelOff l).check = s.check := by simp [levelOff]

@[simp] theorem levelRequest_check (on : Bool) (l : Fin 24) (s : State) : (s.levelRequest on l).check = s.check := by
  unfold levelRequest; split <;> simp

@[simp] theorem firedPulse_check (x : Sec) (tag : Nat) (l : Fin 24) (s : State) :
    (s.firedPulse x tag l).check = s.check := by
  unfold firedPulse; split <;> simp

@[simp] theorem feedRequest_check (on : Bool) (l : Fin 24) (s : State) : (s.feedRequest on l).check = s.check := by
  unfold feedRequest; split <;> simp

@[simp] theorem feedLine_check (on : Bool) (s : State) : (s.feedLine on).check = s.check := by
  unfold feedLine; split <;> simp

@[simp] theorem setReasons_check (f : HoldReasons → HoldReasons) (s : State) : (s.setReasons f).check = s.check := by
  unfold setReasons
  dsimp only
  repeat' split
  all_goals simp

@[simp] theorem lowAfterAllocation_check (s : State) : s.lowAfterAllocation.check = s.check := by
  unfold lowAfterAllocation; split <;> simp

@[simp] theorem lowAfterRelease_check (s : State) : s.lowAfterRelease.check = s.check := by
  unfold lowAfterRelease; split <;> simp

@[simp] theorem lowTest_check (s : State) : s.lowTest.check = s.check := by
  unfold lowTest
  repeat' split
  all_goals simp

@[simp] theorem startSend_check (e : LabelEntry) (s : State) : (s.startSend e).check = s.check := by simp [startSend]

@[simp] theorem trySend_check (s : State) : s.trySend.check = s.check := by
  unfold trySend
  repeat' split
  all_goals simp

@[simp] theorem enterIdle_check (s : State) : s.enterIdle.check = s.check := by
  unfold enterIdle; split <;> simp

@[simp] theorem endAwait_check (s : State) : s.endAwait.check = s.check := by
  unfold endAwait; split <;> simp

@[simp] theorem endAwaitFailed_check (serial : Nat) (s : State) : (s.endAwaitFailed serial).check = s.check := by
  unfold endAwaitFailed; split <;> simp

@[simp] theorem leaveFault_check (s : State) : s.leaveFault.check = s.check := by simp [leaveFault]

@[simp] theorem compose_check (p : Fin 12) (bu : Bundle) (s : State) : (s.compose p bu).check = s.check := by simp [compose]

@[simp] theorem removeEntry_check (serial : Nat) (s : State) : (s.removeEntry serial).check = s.check := by
  unfold removeEntry
  repeat' split
  all_goals simp

@[simp] theorem movePocket_check (p : Fin 12) (new : PocketState) (event : PocketEvent) (serial : Nat) (s : State) :
    (s.movePocket p new event serial).check = s.check := by simp [movePocket]

@[simp] theorem labelBundle_check (p : Fin 12) (bu : Bundle) (s : State) : (s.labelBundle p bu).check = s.check := by simp [labelBundle]

@[simp] theorem discardBundle_check (p : Fin 12) (s : State) : (s.discardBundle p).check = s.check := by simp [discardBundle]

@[simp] theorem joinWait_check (p : Fin 12) (s : State) : (s.joinWait p).check = s.check := by simp [joinWait]

@[simp] theorem closingTest_check (p : Fin 12) (s : State) : (s.closingTest p).check = s.check := by
  unfold closingTest
  repeat' split
  all_goals simp

@[simp] theorem grant_check (s : State) : s.grant.check = s.check := by
  unfold grant
  repeat' split
  all_goals simp

@[simp] theorem closeBundle_check (p : Fin 12) (reason : CloseReason) (s : State) :
    (s.closeBundle p reason).check = s.check := by simp [closeBundle]

@[simp] theorem fullTest_check (p : Fin 12) (s : State) : (s.fullTest p).check = s.check := by
  unfold fullTest
  repeat' split
  all_goals simp

@[simp] theorem openBundle_check (p : Fin 12) (s : State) : (s.openBundle p).check = s.check := by
  unfold openBundle; split <;> simp

@[simp] theorem reserve_check (i : Fin 64) (p : Fin 12) (r : Fin 12) (len : Nat) (s : State) :
    (s.reserve i p r len).check = s.check := by simp [reserve]

@[simp] theorem unreserve_check (pl : Placement) (s : State) : (s.unreserve pl).check = s.check := by simp [unreserve]

@[simp] theorem dropPlacement_check (i : Fin 64) (s : State) : (s.dropPlacement i).check = s.check := by
  unfold dropPlacement; split <;> simp

@[simp] theorem handBack_check (i : Fin 64) (s : State) : (s.handBack i).check = s.check := by
  unfold handBack; split <;> simp

@[simp] theorem clearBundle_check (p : Fin 12) (serial : Nat) (s : State) :
    (s.clearBundle p serial).check = s.check := by simp [clearBundle]

@[simp] theorem clearBin_check (p : Fin 12) (s : State) : (s.clearBin p).check = s.check := by simp [clearBin]

@[simp] theorem clearEdge_check (p : Fin 12) (s : State) : (s.clearEdge p).check = s.check := by
  unfold clearEdge
  repeat' split
  all_goals simp

@[simp] theorem solverNext_check (s : State) : s.solverNext.check = s.check := by
  unfold solverNext
  repeat' split
  all_goals simp

@[simp] theorem solverForget_check (i : Fin 64) (s : State) : (s.solverForget i).check = s.check := by
  unfold solverForget; split <;> simp

@[simp] theorem solverJoin_check (i : Fin 64) (s : State) : (s.solverJoin i).check = s.check := by simp [solverJoin]

@[simp] theorem swapBanks_check (s : State) : s.swapBanks.check = s.check := by simp [swapBanks]

@[simp] theorem bankCommit_check (s : State) : s.bankCommit.check = s.check := by
  unfold bankCommit; split <;> simp

@[simp] theorem putDisposition_check (i : Fin 64) (d : Disposition) (s : State) :
    (s.putDisposition i d).check = s.check := by
  unfold putDisposition; split <;> simp

@[simp] theorem writeDisposition_check (i : Fin 64) (d : Disposition) (s : State) :
    (s.writeDisposition i d).check = s.check := by
  unfold writeDisposition; split <;> simp

@[simp] theorem markUnscanned_check (i : Fin 64) (s : State) : (s.markUnscanned i).check = s.check := by
  unfold markUnscanned
  dsimp only
  repeat' split
  all_goals simp

@[simp] theorem reportRun_check (former : RunState) (cause : RunCause) (released : Nat) (s : State) :
    (s.reportRun former cause released).check = s.check := by simp [reportRun]

@[simp] theorem stopFollowing_check (s : State) : s.stopFollowing.check = s.check := by simp [stopFollowing]

@[simp] theorem drainTest_check (s : State) : s.drainTest.check = s.check := by
  unfold drainTest; split <;> simp

@[simp] theorem removeEntries_check (i : Fin 64) (s : State) : (s.removeEntries i).check = s.check := by simp [removeEntries]

@[simp] theorem release_check (i : Fin 64) (s : State) : (s.release i).check = s.check := by
  unfold release; split <;> simp

@[simp] theorem countLost_check (x : Sec) (s : State) : (s.countLost x).check = s.check := by simp [countLost]

@[simp] theorem lose_check (i : Fin 64) (x : Sec) (s : State) : (s.lose i x).check = s.check := by simp [lose]

@[simp] theorem keepEntries_check (x : Sec) (keep : Entry → Bool) (s : State) :
    (s.keepEntries x keep).check = s.check := by simp [keepEntries]

@[simp] theorem withdrawHead_check (i : Fin 64) (head : Option (Fin 6)) (s : State) :
    (s.withdrawHead i head).check = s.check := by
  unfold withdrawHead
  repeat' split
  all_goals simp

@[simp] theorem withdrawHeads_check (i : Fin 64) (s : State) : (s.withdrawHeads i).check = s.check := by simp [withdrawHeads]

@[simp] theorem markSuspect_check (i : Fin 64) (s : State) : (s.markSuspect i).check = s.check := by
  unfold markSuspect; split <;> simp

@[simp] theorem missedCut_check (i : Fin 64) (s : State) : (s.missedCut i).check = s.check := by
  unfold missedCut
  dsimp only
  repeat' split
  all_goals simp

@[simp] theorem sawCut_check (i : Fin 64) (l : Fin 24) (s : State) : (s.sawCut i l).check = s.check := by
  unfold sawCut
  repeat' split
  all_goals simp

@[simp] theorem countKick_check (p : Fin 12) (s : State) : (s.countKick p).check = s.check := by simp [countKick]

@[simp] theorem commitPiece_check (pl : Placement) (len : Nat) (s : State) :
    (s.commitPiece pl len).check = s.check := by simp [commitPiece]

@[simp] theorem kickBundle_check (i : Fin 64) (pl : Placement) (s : State) : (s.kickBundle i pl).check = s.check := by simp [kickBundle]

@[simp] theorem binFollows_check (p : Fin 12) (s : State) : (s.binFollows p).check = s.check := by
  unfold binFollows
  dsimp only
  repeat' split
  all_goals simp

@[simp] theorem kickBin_check (i : Fin 64) (p : Fin 12) (s : State) : (s.kickBin i p).check = s.check := by simp [kickBin]

@[simp] theorem kickTaken_check (i : Fin 64) (s : State) : (s.kickTaken i).check = s.check := by
  unfold kickTaken; split <;> simp

@[simp] theorem kick_check (i : Fin 64) (l : Fin 24) (s : State) : (s.kick i l).check = s.check := by simp [kick]

@[simp] theorem fireEntry_check (x : Sec) (e : Entry) (s : State) : (s.fireEntry x e).check = s.check := by
  unfold fireEntry
  repeat' split
  all_goals simp

@[simp] theorem fireReached_check (x : Sec) (i : Fin 64) (n : Nat) (s : State) : (fireReached x i n s).check = s.check := by
  induction n generalizing s with
  | zero => rfl
  | succ n ih =>
    rw [fireReached]
    split
    · rfl
    · simp [ih]

@[simp] theorem insertEntries_check (x : Sec) (i : Fin 64) (es : List Entry) (s : State) :
    (s.insertEntries x i es).check = s.check := by simp [insertEntries]

@[simp] theorem markMissed_check (i : Fin 64) (s : State) : (s.markMissed i).check = s.check := by simp [markMissed]

@[simp] theorem commitSolver_check (i : Fin 64) (s : State) : (s.commitSolver i).check = s.check := by
  unfold commitSolver; split <;> simp

@[simp] theorem commitScan_check (i : Fin 64) (s : State) : (s.commitScan i).check = s.check := by
  unfold commitScan; split <;> simp

@[simp] theorem commitDecision_check (i : Fin 64) (s : State) : (s.commitDecision i).check = s.check := by
  unfold commitDecision
  repeat' split
  all_goals simp

@[simp] theorem commitEvent_check (i : Fin 64) (s : State) : (s.commitEvent i).check = s.check := by simp [commitEvent]

@[simp] theorem skipEndMatch_check (i : Fin 64) (s : State) : (s.skipEndMatch i).check = s.check := by
  unfold skipEndMatch; split <;> simp

@[simp] theorem setLastRetracts_check (i : Fin 64) (s : State) : (s.setLastRetracts i).check = s.check := by simp [setLastRetracts]

@[simp] theorem endMatch_check (i : Fin 64) (s : State) : (s.endMatch i).check = s.check := by
  unfold endMatch
  repeat' split
  all_goals simp

@[simp] theorem scheduleKick_check (i : Fin 64) (p : Fin 12) (bin : Option (Fin 12)) (s : State) :
    (s.scheduleKick i p bin).check = s.check := by
  unfold scheduleKick
  repeat' split
  all_goals simp

@[simp] theorem sortBin_check (i : Fin 64) (s : State) : (s.sortBin i).check = s.check := by
  unfold sortBin
  repeat' split
  all_goals simp

@[simp] theorem replacePlacement_check (i : Fin 64) (pl : Placement) (s : State) :
    (s.replacePlacement i pl).check = s.check := by
  unfold replacePlacement
  dsimp only
  repeat' split
  all_goals simp

@[simp] theorem sortPocket_check (i : Fin 64) (pl : Placement) (s : State) : (s.sortPocket i pl).check = s.check := by
  unfold sortPocket; split <;> simp

@[simp] theorem sortCommit_check (i : Fin 64) (s : State) : (s.sortCommit i).check = s.check := by
  unfold sortCommit
  dsimp only
  repeat' split
  all_goals simp

@[simp] theorem lengthCheck_check (i : Fin 64) (x : Sec) (measured : Nat) (s : State) :
    (s.lengthCheck i x measured).check = s.check := by
  unfold lengthCheck
  dsimp only
  repeat' split
  all_goals simp

@[simp] theorem announce_check (i : Fin 64) (s : State) : (s.announce i).check = s.check := by
  unfold announce; split <;> simp

@[simp] theorem degradedFaces_check (i : Fin 64) (s : State) : (s.degradedFaces i).check = s.check := by
  unfold degradedFaces
  repeat' split
  all_goals simp

@[simp] theorem countGauged_check (s : State) : s.countGauged.check = s.check := by simp [countGauged]

@[simp] theorem countUntracked_check (s : State) : s.countUntracked.check = s.check := by simp [countUntracked]

@[simp] theorem allocate_check (i : Fin 64) (rest : List (Fin 64)) (n : Nat) (lead : Pos) (d : Disposition) (p : ProfileStatus) (s : State) :
    (s.allocate i rest n lead d p).check = s.check := by simp [allocate]

@[simp] theorem gaugedStrip_check (mm : Nat) (lead : Pos) (s : State) : (s.gaugedStrip mm lead).check = s.check := by
  unfold gaugedStrip
  dsimp only
  repeat' split
  all_goals simp

@[simp] theorem gaugeLead_check (pos : Pos) (s : State) : (s.gaugeLead pos).check = s.check := by simp [gaugeLead]

@[simp] theorem gaugeTail_check (pos : Pos) (s : State) : (s.gaugeTail pos).check = s.check := by
  unfold gaugeTail
  dsimp only
  repeat' split
  all_goals simp

@[simp] theorem overlength_check (lead : Pos) (s : State) : (s.overlength lead).check = s.check := by
  unfold overlength
  dsimp only
  repeat' split
  all_goals simp

@[simp] theorem stray_check (x : Sec) (k : Fin 3) (s : State) : (s.stray x k).check = s.check := by simp [stray]

@[simp] theorem matched_check (x y : Sec) (i : Fin 64) (pos : Pos) (s : State) :
    (s.matched x y i pos).check = s.check := by
  unfold matched; split <;> simp

@[simp] theorem handoffEdge_check (x y : Sec) (k : Fin 3) (pos : Pos) (n : Nat) (s : State) :
    (handoffEdge x y k pos n s).check = s.check := by
  induction n generalizing s with
  | zero => simp [handoffEdge]
  | succ n ih =>
    rw [handoffEdge]
    repeat' split
    all_goals simp [ih]

@[simp] theorem joinWatch_check (i : Fin 64) (pos : Pos) (s : State) : (s.joinWatch i pos).check = s.check := by
  unfold joinWatch; split <;> simp

@[simp] theorem tailEdge_check (x : Sec) (pos : Pos) (s : State) : (s.tailEdge x pos).check = s.check := by
  unfold tailEdge
  repeat' split
  all_goals simp

@[simp] theorem followEdge_check (x : Sec) (lead : Bool) (pos : Pos) (s : State) :
    (s.followEdge x lead pos).check = s.check := by
  unfold followEdge; split <;> simp

@[simp] theorem confirmEye_check (x : Sec) (e : PendingEye) (s : State) : (s.confirmEye x e).check = s.check := by
  unfold confirmEye
  dsimp only
  repeat' split
  all_goals simp

@[simp] theorem runOff_check (i : Fin 64) (s : State) : (s.runOff i).check = s.check := by
  unfold runOff; split <;> simp

@[simp] theorem act_check (d : Due) (s : State) : (s.act d).check = s.check := by
  unfold act; split <;> simp

@[simp] theorem settle_check (stepped : Option Sec) (n : Nat) (s : State) : (settle stepped n s).check = s.check := by
  induction n generalizing s with
  | zero => rfl
  | succ n ih =>
    rw [settle]
    repeat' split
    all_goals simp [ih]

theorem foldl_release_check (l : List (Fin 64)) (s : State) : (l.foldl (fun u i => u.release i) s).check = s.check := by
  induction l generalizing s with
  | nil => rfl
  | cons i l ih => simp [ih]

@[simp] theorem releaseAll_check (s : State) : s.releaseAll.check = s.check := foldl_release_check _ s

@[simp] theorem emptyQueues_check (s : State) : s.emptyQueues.check = s.check := by simp [emptyQueues]

@[simp] theorem enterHalt_check (reason : HaltReason) (cause : RunCause) (s : State) :
    (s.enterHalt reason cause).check = s.check := by simp [enterHalt]

@[simp] theorem followMark_check (x : Sec) (s : State) : (s.followMark x).check = s.check := by simp [followMark]

@[simp] theorem stepForward_check (x : Sec) (s : State) : (s.stepForward x).check = s.check := by
  unfold stepForward
  dsimp only
  repeat' split
  all_goals simp

@[simp] theorem stepBackward_check (x : Sec) (s : State) : (s.stepBackward x).check = s.check := by
  unfold stepBackward
  dsimp only
  repeat' split
  all_goals simp

@[simp] theorem rawStep_check (x : Sec) (forward : Bool) (s : State) : (s.rawStep x forward).check = s.check := by
  unfold rawStep
  dsimp only
  repeat' split
  all_goals simp

@[simp] theorem rawCount_check (x : Sec) (phase : Phase) (s : State) : (s.rawCount x phase).check = s.check := by
  simp [rawCount]

@[simp] theorem eyeInput_check (x : Sec) (blocked : Bool) (s : State) : (s.eyeInput x blocked).check = s.check := by
  unfold eyeInput
  dsimp only
  repeat' split
  all_goals simp

@[simp] theorem syncProfileHold_check (s : State) : s.syncProfileHold.check = s.check := by simp [syncProfileHold]

/-- A change of the trend state changes nothing else of the check (R96, R98). -/
@[simp] theorem moveTrend_check (new : TrendState) (tag : Nat) (s : State) :
    (s.moveTrend new tag).check = { s.check with state := new } := by
  unfold moveTrend
  split
  · rename_i h; rw [h]
  · simp [modCheck]

@[simp] theorem trendTest_check (tag : Nat) (s : State) :
    (s.trendTest tag).check = { s.check with state := s.check.nextState } := by
  simp [trendTest]

/-- A strip's test raises the fail count of the check, and changes nothing else of it (R93, R94). -/
theorem judgeStrip_check (i : Fin 64) (d : Vector Int 4) (s : State) :
    (s.judgeStrip i d).check = if s.check.passes d then s.check else { s.check with fails := s.check.fails + 1 } := by
  unfold judgeStrip
  split
  · simp
  · simp [modCheck]

@[simp] theorem headFrame_check (h' : Head) (bad : Bool) (s : State) : (s.headFrame h' bad).check = s.check := by
  unfold headFrame
  dsimp only
  repeat' split
  all_goals simp

@[simp] theorem badFrame_check (h' : Option Head) (s : State) : (s.badFrame h').check = s.check := by
  unfold badFrame; split <;> simp

@[simp] theorem scanLinkError_check (h' : Option Head) (s : State) : (s.scanLinkError h').check = s.check := by simp [scanLinkError]

@[simp] theorem intakeOffer_check (f : Frame) (s : State) : (s.intakeOffer f).check = s.check := by
  unfold intakeOffer; split <;> simp

@[simp] theorem malformed_check (f : Frame) (s : State) : (s.malformed f).check = s.check := by simp [malformed]

@[simp] theorem unknownTag_check (h' : Head) (s : State) : (s.unknownTag h').check = s.check := by simp [unknownTag]

@[simp] theorem lateFrame_check (h' : Head) (s : State) : (s.lateFrame h').check = s.check := by simp [lateFrame]

@[simp] theorem spoilFace_check (i : Fin 64) (f : Face) (st : FaceStatus) (s : State) :
    (s.spoilFace i f st).check = s.check := by simp [spoilFace]

@[simp] theorem modTally_check (i : Fin 64) (f : Face) (g : Tally → Tally) (s : State) :
    (s.modTally i f g).check = s.check := by simp [modTally]

@[simp] theorem joinDefect_check (i : Fin 64) (f : Face) (d : RawDefect) (s : State) :
    (s.joinDefect i f d).check = s.check := by simp [joinDefect]

@[simp] theorem attachDefects_check (i : Fin 64) (f : Face) (ds : List RawDefect) (s : State) :
    (attachDefects i f ds s).check = s.check := by
  induction ds generalizing s with
  | nil => rfl
  | cons d ds ih =>
    rw [attachDefects]
    repeat' split
    all_goals simp [ih]

@[simp] theorem attachFrame_check (i : Fin 64) (d : DefectsFrame) (s : State) :
    (s.attachFrame i d).check = s.check := by
  unfold attachFrame
  dsimp only
  repeat' split
  all_goals simp

@[simp] theorem takeDefects_check (f : Frame) (s : State) : (s.takeDefects f).check = s.check := by
  unfold takeDefects
  repeat' split
  all_goals simp

@[simp] theorem completionTest_check (i : Fin 64) (s : State) : (s.completionTest i).check = s.check := by
  unfold completionTest
  dsimp only
  repeat' split
  all_goals simp

@[simp] theorem closeFace_check (i : Fin 64) (f : Face) (total : Nat) (s : State) :
    (s.closeFace i f total).check = s.check := by
  unfold closeFace; split <;> simp

@[simp] theorem takeScanEnd_check (f : Frame) (s : State) : (s.takeScanEnd f).check = s.check := by
  unfold takeScanEnd
  repeat' split
  all_goals simp

theorem takeFrame_check (deal : Frame → State → State) (s : State)
    (deals : ∀ (f : Frame) (u : State), (deal f u).check = u.check) : (s.takeFrame deal).check = s.check := by
  unfold takeFrame
  repeat' split
  all_goals simp [deals]

@[simp] theorem enterRun_check (s : State) : s.enterRun.check = s.check := by simp [enterRun]

@[simp] theorem returnToRun_check (s : State) : s.returnToRun.check = s.check := by simp [returnToRun]

@[simp] theorem enterDrain_check (s : State) : s.enterDrain.check = s.check := by simp [enterDrain]

@[simp] theorem leaveHalt_check (s : State) : s.leaveHalt.check = s.check := by simp [leaveHalt]

@[simp] theorem putSection_check (p : List Byte) (s : State) : (s.putSection p).check = s.check := by simp [putSection]

@[simp] theorem putOutput_check (p : List Byte) (s : State) : (s.putOutput p).check = s.check := by
  unfold putOutput
  dsimp only
  repeat' split
  all_goals simp

@[simp] theorem putPair_check (p : List Byte) (s : State) : (s.putPair p).check = s.check := by simp [putPair]

@[simp] theorem modShadow_check (f : BankTable → BankTable) (s : State) : (s.modShadow f).check = s.check := by simp [modShadow]

@[simp] theorem putPocket_check (p : List Byte) (s : State) : (s.putPocket p).check = s.check := by
  unfold putPocket
  dsimp only
  repeat' split
  all_goals simp

@[simp] theorem moveFeedLine_check (former : Option (Fin 24)) (s : State) :
    (s.moveFeedLine former).check = s.check := by
  unfold moveFeedLine
  dsimp only
  repeat' split
  all_goals simp

@[simp] theorem putLine_check (p : List Byte) (s : State) : (s.putLine p).check = s.check := by
  unfold putLine; split <;> simp

@[simp] theorem putLabel_check (p : List Byte) (s : State) : (s.putLabel p).check = s.check := by
  unfold putLabel
  dsimp only
  repeat' split
  all_goals simp

/-- CLEAR_COUNTS zeroes the fail count, and changes nothing else of the check (R198). -/
@[simp] theorem zeroCounts_check (s : State) : s.zeroCounts.check = { s.check with fails := 0 } := rfl

@[simp] theorem holdPocket_check (n : Fin 12) (s : State) : (s.holdPocket n).check = s.check := by simp [holdPocket]

@[simp] theorem releasePocket_check (n : Fin 12) (s : State) : (s.releasePocket n).check = s.check := by
  unfold releasePocket; split <;> simp

@[simp] theorem pauseLabels_check (s : State) : s.pauseLabels.check = s.check := by
  unfold pauseLabels; split <;> simp

@[simp] theorem requeueFault_check (s : State) : s.requeueFault.check = s.check := by
  unfold requeueFault; split <;> simp

@[simp] theorem resumeLabels_check (s : State) : s.resumeLabels.check = s.check := by
  unfold resumeLabels; split <;> simp

@[simp] theorem skipLabel_check (serial : Nat) (s : State) : (s.skipLabel serial).check = s.check := by
  unfold skipLabel; split <;> simp

@[simp] theorem reprintLabel_check (serial : Nat) (s : State) : (s.reprintLabel serial).check = s.check := by
  unfold reprintLabel; split <;> simp

@[simp] theorem scanHunts_check (s : State) : s.scanHunts.check = s.check := by simp [scanHunts]

@[simp] theorem storeSolution_check (i : Fin 64) (v : Valued) (s : State) :
    (s.storeSolution i v).check = s.check := by simp [storeSolution]

@[simp] theorem askPlace_check (i : Fin 64) (g : Fin 8) (len : Nat) (s : State) :
    (s.askPlace i g len).check = s.check := by
  unfold askPlace; split <;> simp

@[simp] theorem solveOutcome_check (i : Fin 64) (v : Valued) (s : State) : (s.solveOutcome i v).check = s.check := by
  unfold solveOutcome
  repeat' split
  all_goals simp

@[simp] theorem noCandidate_check (i : Fin 64) (s : State) : (s.noCandidate i).check = s.check := by simp [noCandidate]

@[simp] theorem solverIdle_check (s : State) : s.solverIdle.check = s.check := by simp [solverIdle]

@[simp] theorem solveComplete_check (s : State) : s.solveComplete.check = s.check := by
  unfold solveComplete
  repeat' split
  all_goals simp

@[simp] theorem pulseEnds_check (l : Fin 24) (s : State) : (s.pulseEnds l).check = s.check := by
  unfold pulseEnds; split <;> simp

@[simp] theorem pullInEnds_check (l : Fin 24) (s : State) : (s.pullInEnds l).check = s.check := by
  unfold pullInEnds
  repeat' split
  all_goals simp

@[simp] theorem chopEnds_check (l : Fin 24) (s : State) : (s.chopEnds l).check = s.check := by
  unfold chopEnds; split <;> simp

@[simp] theorem deadTimeEnds_check (p : Fin 6) (s : State) : (s.deadTimeEnds p).check = s.check := by
  unfold deadTimeEnds
  repeat' split
  all_goals simp

@[simp] theorem sawReady_check (s : State) : s.sawReady.check = s.check := by
  unfold sawReady; split <;> simp

@[simp] theorem clearInput_check (p : Fin 12) (active : Bool) (s : State) :
    (s.clearInput p active).check = s.check := by
  unfold clearInput
  dsimp only
  repeat' split
  all_goals rfl

@[simp] theorem clearHeld_check (p : Fin 12) (s : State) : (s.clearHeld p).check = s.check := by
  unfold clearHeld
  repeat' split
  all_goals simp

@[simp] theorem printerHunts_check (s : State) : s.printerHunts.check = s.check := by simp [printerHunts]

@[simp] theorem printerError_check (s : State) : s.printerError.check = s.check := by simp [printerError]

@[simp] theorem reportLabel_check (serial : Nat) (event : LabelEvent) (s : State) :
    (s.reportLabel serial event).check = s.check := by
  unfold reportLabel; split <;> simp

@[simp] theorem paceEnds_check (s : State) : s.paceEnds.check = s.check := by
  unfold paceEnds
  repeat' split
  all_goals simp

@[simp] theorem awaitAnswer_check (serial : Nat) (s : State) : (s.awaitAnswer serial).check = s.check := by
  unfold awaitAnswer; split <;> simp

@[simp] theorem transmissionEnds_check (s : State) : s.transmissionEnds.check = s.check := by
  unfold transmissionEnds
  repeat' split
  all_goals simp

@[simp] theorem unmatchedReply_check (s : State) : s.unmatchedReply.check = s.check := by simp [unmatchedReply]

@[simp] theorem stopAckTimer_check (s : State) : s.stopAckTimer.check = s.check := by simp [stopAckTimer]

@[simp] theorem acked_check (serial : Nat) (s : State) : (s.acked serial).check = s.check := by
  unfold acked; split <;> simp

@[simp] theorem copyFails_check (serial : Nat) (cause : FailCause) (code : Byte) (s : State) :
    (s.copyFails serial cause code).check = s.check := by simp [copyFails]

@[simp] theorem takeAck_check (serial : Nat) (s : State) : (s.takeAck serial).check = s.check := by
  unfold takeAck; split <;> simp

@[simp] theorem takeNak_check (serial : Nat) (code : Byte) (s : State) : (s.takeNak serial code).check = s.check := by
  unfold takeNak; split <;> simp

@[simp] theorem ackExpires_check (s : State) : s.ackExpires.check = s.check := by
  unfold ackExpires; split <;> simp

@[simp] theorem readyRises_check (s : State) : s.readyRises.check = s.check := by
  unfold readyRises
  repeat' split
  all_goals simp

@[simp] theorem readyInput_check (asserted : Bool) (s : State) : (s.readyInput asserted).check = s.check := by
  unfold readyInput
  repeat' split
  all_goals simp

@[simp] theorem stopRises_check (s : State) : s.stopRises.check = s.check := by
  unfold stopRises; split <;> simp

@[simp] theorem stopFalls_check (s : State) : s.stopFalls.check = s.check := by
  unfold stopFalls; split <;> simp

@[simp] theorem stopInput_check (asserted : Bool) (s : State) : (s.stopInput asserted).check = s.check := by
  unfold stopInput
  repeat' split
  all_goals simp

@[simp] theorem linkError_check (link : Link) (h' : Option Head) (s : State) :
    (s.linkError link h').check = s.check := by
  unfold linkError; split <;> simp

@[simp] theorem handReply_check (f : Frame) (s : State) : (s.handReply f).check = s.check := by simp [handReply]

/-- A request refused leaves the check; one that is acted on does what its act does. -/
theorem handle_check {len : Nat} {checks : List (Bool × Status)} {act : State → State × List Byte} {p : List Byte}
    {s : State} (h : (act s).1.check = s.check) : (handle len checks act p s).1.check = s.check :=
  handle_keeps (P := fun u => u.check = s.check) rfl h

@[simp] theorem takeIdentify_check (p : List Byte) (s : State) : (s.takeIdentify p).1.check = s.check :=
  handle_check rfl

@[simp] theorem takeSetSection_check (p : List Byte) (s : State) : (s.takeSetSection p).1.check = s.check :=
  handle_check rfl

@[simp] theorem takeSetOutput_check (p : List Byte) (s : State) : (s.takeSetOutput p).1.check = s.check :=
  handle_check (by simp [okaySet])

@[simp] theorem takeArmPair_check (p : List Byte) (s : State) : (s.takeArmPair p).1.check = s.check :=
  handle_check rfl

@[simp] theorem takeSetTrim_check (p : List Byte) (s : State) : (s.takeSetTrim p).1.check = s.check :=
  handle_check (by simp [okaySet])

@[simp] theorem takeSetGrade_check (p : List Byte) (s : State) : (s.takeSetGrade p).1.check = s.check :=
  handle_check (by simp [okaySet])

@[simp] theorem takeSetRules_check (p : List Byte) (s : State) : (s.takeSetRules p).1.check = s.check :=
  handle_check (by simp [okaySet])

@[simp] theorem takeSetPrices_check (p : List Byte) (s : State) : (s.takeSetPrices p).1.check = s.check :=
  handle_check (by simp [okaySet])

@[simp] theorem takeCommitBank_check (p : List Byte) (s : State) : (s.takeCommitBank p).1.check = s.check := by
  refine handle_check ?_
  simp only [okay, incomplete]
  repeat' split
  all_goals simp

@[simp] theorem takeSetPocket_check (p : List Byte) (s : State) : (s.takeSetPocket p).1.check = s.check :=
  handle_check (by simp [okaySet])

@[simp] theorem takeSetLine_check (p : List Byte) (s : State) : (s.takeSetLine p).1.check = s.check :=
  handle_check (by simp [okaySet])

@[simp] theorem takeSetLabel_check (p : List Byte) (s : State) : (s.takeSetLabel p).1.check = s.check :=
  handle_check (by simp [okaySet])

@[simp] theorem takeSetReports_check (p : List Byte) (s : State) : (s.takeSetReports p).1.check = s.check :=
  handle_check rfl

@[simp] theorem takeStartLine_check (p : List Byte) (s : State) : (s.takeStartLine p).1.check = s.check := by
  refine handle_check ?_
  simp only [okay, incomplete]
  repeat' split
  all_goals simp

@[simp] theorem takeStopLine_check (p : List Byte) (s : State) : (s.takeStopLine p).1.check = s.check := by
  refine handle_check ?_
  simp only [okay]
  repeat' split
  all_goals simp

@[simp] theorem takeHaltLine_check (p : List Byte) (s : State) : (s.takeHaltLine p).1.check = s.check := by
  refine handle_check ?_
  simp only [okay]
  repeat' split
  all_goals simp

@[simp] theorem takeClearHalt_check (p : List Byte) (s : State) : (s.takeClearHalt p).1.check = s.check :=
  handle_check (by simp [okay])

@[simp] theorem takeFeedHold_check (p : List Byte) (s : State) : (s.takeFeedHold p).1.check = s.check :=
  handle_check (by simp [okay])

@[simp] theorem takeReset_check (p : List Byte) (s : State) : (s.takeReset p).1.check = s.check := handle_check rfl

@[simp] theorem takeTestLevel_check (p : List Byte) (s : State) : (s.takeTestLevel p).1.check = s.check :=
  handle_check (by simp [okay])

@[simp] theorem takeTestPulse_check (p : List Byte) (s : State) : (s.takeTestPulse p).1.check = s.check :=
  handle_check (by simp [okay])

@[simp] theorem takeTestTarget_check (p : List Byte) (s : State) : (s.takeTestTarget p).1.check = s.check :=
  handle_check (by simp [okay])

@[simp] theorem takeClosePocket_check (p : List Byte) (s : State) : (s.takeClosePocket p).1.check = s.check :=
  handle_check (by simp [okay])

@[simp] theorem takeHoldPocket_check (p : List Byte) (s : State) : (s.takeHoldPocket p).1.check = s.check :=
  handle_check (by simp [okay])

@[simp] theorem takeReleasePocket_check (p : List Byte) (s : State) : (s.takeReleasePocket p).1.check = s.check :=
  handle_check (by simp [okay])

@[simp] theorem takeClearPocket_check (p : List Byte) (s : State) : (s.takeClearPocket p).1.check = s.check := by
  refine handle_check ?_
  simp only [okay]
  repeat' split
  all_goals simp

@[simp] theorem takePauseLabels_check (p : List Byte) (s : State) : (s.takePauseLabels p).1.check = s.check :=
  handle_check (by simp [okay])

@[simp] theorem takeResumeLabels_check (p : List Byte) (s : State) : (s.takeResumeLabels p).1.check = s.check :=
  handle_check (by simp [okay])

@[simp] theorem takeSkipLabel_check (p : List Byte) (s : State) : (s.takeSkipLabel p).1.check = s.check :=
  handle_check (by simp [okay])

@[simp] theorem takeReprintLabel_check (p : List Byte) (s : State) : (s.takeReprintLabel p).1.check = s.check :=
  handle_check (by simp [okay])

@[simp] theorem takeGetState_check (p : List Byte) (s : State) : (s.takeGetState p).1.check = s.check :=
  handle_check rfl

@[simp] theorem takeGetStrip_check (p : List Byte) (s : State) : (s.takeGetStrip p).1.check = s.check := by
  refine handle_check ?_
  simp only [okayWith, refuse]
  repeat' split
  all_goals simp

@[simp] theorem takeGetPocket_check (p : List Byte) (s : State) : (s.takeGetPocket p).1.check = s.check :=
  handle_check rfl

@[simp] theorem takeGetLabels_check (p : List Byte) (s : State) : (s.takeGetLabels p).1.check = s.check := by
  refine handle_check ?_
  simp only [okayWith, refuse]
  repeat' split
  all_goals simp

@[simp] theorem takeGetCounts_check (p : List Byte) (s : State) : (s.takeGetCounts p).1.check = s.check :=
  handle_check rfl

@[simp] theorem takeGetList_check (p : List Byte) (s : State) : (s.takeGetList p).1.check = s.check :=
  handle_check rfl

@[simp] theorem takeTestOutput_check (p : List Byte) (s : State) : (s.takeTestOutput p).1.check = s.check := by
  unfold takeTestOutput; split <;> simp

end State

end Sys2Proof.Machine
end

