-- ==== Sys2Proof/Laws/Links.lean ====
section
/-! SUPPORT. Reception on a link: what the receiver does with the bytes of a frame, and what the arrival of bytes keeps
(R187). -/

namespace Sys2Proof.Machine

open Sys2Proof.Config

/-! ### The receiver -/

/-- The bytes of a frame from its length byte on, but for the last, are kept. -/
theorem takeGood_keeps (n b : Byte) (rest : List Byte) (h : rest.length + 2 < n.toNat + 5) :
    Receiver.takeGood (n :: rest) b = (.receiving (n :: rest ++ [b]), .nothing) := by
  simp [Receiver.takeGood, h]

/-- The byte that the length byte counts as the last ends the frame. -/
theorem takeGood_ends (n b : Byte) (rest : List Byte) (h : n.toNat + 5 ≤ rest.length + 2) :
    Receiver.takeGood (n :: rest) b = (.hunting, received (n :: rest ++ [b])) := by
  have k : ¬ rest.length + 2 < n.toNat + 5 := by omega
  simp [Receiver.takeGood, k]

/-- What follows the covered bytes of a frame makes it whole when it is their CRC, and fails it otherwise. -/
theorem received_frame (f : Frame) (h : f.payload.length ≤ maxPayload) (crc : List Byte) :
    received (f.covered ++ crc) =
      if crc = be16 (crc16 f.covered).toNat then .whole f else .failed (some f) := by
  have n : (toByte f.payload.length).toNat = f.payload.length := by
    have m : maxPayload = 240 := rfl
    simp only [toByte, BitVec.toNat_ofNat]
    omega
  simp only [received, Frame.covered, List.cons_append, n, List.take_left', List.drop_left']
  rfl

namespace State

@[simp] theorem receiver_setReceiver (link : Link) (r : Receiver) (s : State) :
    (s.setReceiver link r).receiver link = r := by cases link <;> rfl

@[simp] theorem setReceiver_setReceiver (link : Link) (q r : Receiver) (s : State) :
    (s.setReceiver link q).setReceiver link r = s.setReceiver link r := by cases link <;> rfl

@[simp] theorem setReceiver_receiver (link : Link) (s : State) : s.setReceiver link (s.receiver link) = s := by
  cases link <;> rfl

/-- What a receiver holds is of no account to a frame that fails. -/
@[simp] theorem linkError_setReceiver (link : Link) (r : Receiver) (h : Option Head) (s : State) :
    (s.setReceiver link r).linkError link h = s.linkError link h := by cases link <;> rfl

/-- What a receiver holds is of no account to a frame received whole. -/
@[simp] theorem frameArrives_setReceiver (link : Link) (r : Receiver) (f : Frame) (s : State) :
    (s.setReceiver link r).frameArrives link f = s.frameArrives link f := by cases link <;> rfl

/-! ### Bytes arriving -/

@[simp] theorem takeBytes_nil (link : Link) (s : State) : s.takeBytes link [] = s := rfl

@[simp] theorem takeBytes_cons (link : Link) (x : LineByte) (bytes : List LineByte) (s : State) :
    s.takeBytes link (x :: bytes) = (s.takeByte link x).takeBytes link bytes := rfl

theorem takeBytes_append (link : Link) (first rest : List LineByte) (s : State) :
    s.takeBytes link (first ++ rest) = (s.takeBytes link first).takeBytes link rest :=
  List.foldl_append

/-- A start byte makes a hunting receiver receive. -/
theorem takeByte_start {link : Link} {s : State} (h : s.receiver link = .hunting) :
    s.takeByte link (.good 0x5A) = s.setReceiver link (.receiving []) := by
  simp [takeByte, h, Receiver.take]

/-- Every other byte, and a byte error, leaves a hunting receiver as it is. -/
theorem takeByte_hunting {link : Link} {s : State} (h : s.receiver link = .hunting) {x : LineByte}
    (k : x ≠ .good 0x5A) : s.takeByte link x = s := by
  have e := setReceiver_receiver link s
  rw [h] at e
  cases x with
  | error => simp [takeByte, h, Receiver.take, e]
  | good b =>
    have n : b ≠ 0x5A := fun c => k (by rw [c])
    simp only [takeByte, h, Receiver.take, if_neg n, e]

/-- A byte error fails the frame being received, and so does a gap. -/
theorem takeByte_error {link : Link} {s : State} {got : List Byte} (h : s.receiver link = .receiving got) :
    s.takeByte link .error = s.linkError link none := by
  simp [takeByte, h, Receiver.take, failedHead]

theorem gap_receiving {link : Link} {s : State} {got : List Byte} (h : s.receiver link = .receiving got) :
    s.gap link = s.linkError link none := by
  simp [gap, h]

theorem gap_hunting {link : Link} {s : State} (h : s.receiver link = .hunting) : s.gap link = s := by
  simp [gap, h]

/-- The bytes of a frame after its length byte, all but the last, are held, and nothing else changes. -/
theorem takeBytes_keeps (link : Link) (n : Byte) (bytes : List Byte) :
    ∀ (got : List Byte) (s : State), got.length + bytes.length < n.toNat + 4 → s.receiver link = .receiving (n :: got) →
      s.takeBytes link (bytes.map .good) = s.setReceiver link (.receiving (n :: got ++ bytes)) := by
  induction bytes with
  | nil =>
    intro got s _ h
    have e := setReceiver_receiver link s
    rw [h] at e
    simp [e]
  | cons b bytes ih =>
    intro got s len h
    simp only [List.length_cons] at len
    have k : s.takeByte link (.good b) = s.setReceiver link (.receiving (n :: (got ++ [b]))) := by
      simp only [takeByte, h, Receiver.take, takeGood_keeps n b got (by omega), List.cons_append]
    rw [List.map_cons, takeBytes_cons, k, ih (got ++ [b]) _ (by simp; omega) (receiver_setReceiver _ _ _)]
    simp

/-- What the arrival of one frame, one failure and one change of the receiver keep, the arrival of bytes keeps. -/
theorem takeBytes_induction {P : State → Prop} {link : Link}
    (held : ∀ s r, P s → P (s.setReceiver link r)) (whole : ∀ s f, P s → P (s.frameArrives link f))
    (failed : ∀ s h, P s → P (s.linkError link h)) (bytes : List LineByte) :
    ∀ s, P s → P (s.takeBytes link bytes) := by
  induction bytes with
  | nil => exact fun s p => p
  | cons x bytes ih =>
    intro s p
    rw [takeBytes_cons]
    refine ih _ ?_
    unfold takeByte
    split
    · exact held _ _ p
    · exact whole _ _ p
    · exact failed _ _ p

end State

end Sys2Proof.Machine
end

