-- ==== Sys2Proof/Laws/PerInstr.lean ====
section
/-! SUPPORT. Statements about every command as syntax, one lemma for each constructor. -/

namespace Sys2Proof.Laws

/-- A well-formed command that stands for a frame carries a payload that fits a frame (R186). -/
def Text.Statement (i : Instr) : Prop := i.wellFormed = true → ∀ p, i.payload? = some p → p.length ≤ Config.maxPayload

namespace Text

theorem fits {p q : List Byte} (h : payloadOk p = true) (e : some p = some q) : q.length ≤ Config.maxPayload := by
  cases e; simpa [payloadOk] using h

theorem fitsForm {form : Byte} {p q : List Byte} (h : decide (p.length < Config.maxPayload) = true)
    (e : some (form :: p) = some q) : q.length ≤ Config.maxPayload := by
  cases e; simpa [Nat.succ_le_iff] using h

theorem powerOnReset (found : InputPins) : Statement (.powerOnReset found) := fun _ _ e => nomatch e

theorem softReset : Statement .softReset := fun _ _ e => nomatch e

theorem rawCount (sec : Sec) (phase : Phase) : Statement (.rawCount sec phase) := fun _ _ e => nomatch e

theorem eyeInputChange (sec : Sec) (blocked : Bool) : Statement (.eyeInputChange sec blocked) := fun _ _ e => nomatch e

theorem scanStartSent : Statement .scanStartSent := fun _ _ e => nomatch e

theorem scanFrameReceived (kind id : Byte) (payload : List Byte) : Statement (.scanFrameReceived kind id payload) := fun h _ e => fits h e

theorem defects : Statement .defects := fun _ _ e => nomatch e

theorem scanEnd : Statement .scanEnd := fun _ _ e => nomatch e

theorem profile : Statement .profile := fun _ _ e => nomatch e

theorem solveComplete : Statement .solveComplete := fun _ _ e => nomatch e

theorem pulseWidthExpiry (line : Fin 24) : Statement (.pulseWidthExpiry line) := fun _ _ e => nomatch e

theorem pullInExpiry (line : Fin 24) : Statement (.pullInExpiry line) := fun _ _ e => nomatch e

theorem chopPeriod (line : Fin 24) : Statement (.chopPeriod line) := fun _ _ e => nomatch e

theorem deadTimeExpiry (pair : Fin 6) : Statement (.deadTimeExpiry pair) := fun _ _ e => nomatch e

theorem sawRecoveryExpiry : Statement .sawRecoveryExpiry := fun _ _ e => nomatch e

theorem clearEdge (pocket : Fin 12) (event : ClearEvent) : Statement (.clearEdge pocket event) := fun _ _ e => nomatch e

theorem paceInterval : Statement .paceInterval := fun _ _ e => nomatch e

theorem labelTransmissionComplete : Statement .labelTransmissionComplete := fun _ _ e => nomatch e

theorem ack (serial : BitVec 32) : Statement (.ack serial) := fun _ _ e => nomatch e

theorem nak (serial : BitVec 32) (code : Byte) : Statement (.nak serial code) := fun _ _ e => nomatch e

theorem ackTimeout : Statement .ackTimeout := fun _ _ e => nomatch e

theorem readyChange (asserted : Bool) : Statement (.readyChange asserted) := fun _ _ e => nomatch e

theorem stopChange (asserted : Bool) : Statement (.stopChange asserted) := fun _ _ e => nomatch e

theorem frameError (link : Link) (bytes : List LineByte) : Statement (.frameError link bytes) := fun _ _ e => nomatch e

theorem linkGapTimeout (burst : Burst) : Statement (.linkGapTimeout burst) := fun _ _ e => nomatch e

theorem hostFrameReceived (kind id : Byte) (payload : List Byte) : Statement (.hostFrameReceived kind id payload) := fun h _ e => fits h e

theorem replySent : Statement .replySent := fun _ _ e => nomatch e

theorem reportSent : Statement .reportSent := fun _ _ e => nomatch e

theorem unknownKind (kind id : Byte) (payload : List Byte) : Statement (.unknownKind kind id payload) := fun h _ e => fits (Bool.and_eq_true_iff.1 h).2 e

theorem identify (id : Byte) (payload : List Byte) : Statement (.identify id payload) := fun h _ e => fits h e

theorem setSection (id : Byte) (payload : List Byte) : Statement (.setSection id payload) := fun h _ e => fits h e

theorem setOutput (id : Byte) (payload : List Byte) : Statement (.setOutput id payload) := fun h _ e => fits h e

theorem armPair (id : Byte) (payload : List Byte) : Statement (.armPair id payload) := fun h _ e => fits h e

theorem setTrim (id : Byte) (payload : List Byte) : Statement (.setTrim id payload) := fun h _ e => fits h e

theorem setGrade (id : Byte) (payload : List Byte) : Statement (.setGrade id payload) := fun h _ e => fits h e

theorem setRules (id : Byte) (payload : List Byte) : Statement (.setRules id payload) := fun h _ e => fits h e

theorem setPrices (id : Byte) (payload : List Byte) : Statement (.setPrices id payload) := fun h _ e => fits h e

theorem commitBank (id : Byte) (payload : List Byte) : Statement (.commitBank id payload) := fun h _ e => fits h e

theorem setProfile (id : Byte) (payload : List Byte) : Statement (.setProfile id payload) := fun h _ e => fits h e

theorem clearTrend (id : Byte) (payload : List Byte) : Statement (.clearTrend id payload) := fun h _ e => fits h e

theorem setPocket (id : Byte) (payload : List Byte) : Statement (.setPocket id payload) := fun h _ e => fits h e

theorem setLine (id : Byte) (payload : List Byte) : Statement (.setLine id payload) := fun h _ e => fits h e

theorem setLabel (id : Byte) (payload : List Byte) : Statement (.setLabel id payload) := fun h _ e => fits h e

theorem setReports (id : Byte) (payload : List Byte) : Statement (.setReports id payload) := fun h _ e => fits h e

theorem startLine (id : Byte) (payload : List Byte) : Statement (.startLine id payload) := fun h _ e => fits h e

theorem stopLine (id : Byte) (payload : List Byte) : Statement (.stopLine id payload) := fun h _ e => fits h e

theorem haltLine (id : Byte) (payload : List Byte) : Statement (.haltLine id payload) := fun h _ e => fits h e

theorem clearHalt (id : Byte) (payload : List Byte) : Statement (.clearHalt id payload) := fun h _ e => fits h e

theorem feedHold (id : Byte) (payload : List Byte) : Statement (.feedHold id payload) := fun h _ e => fits h e

theorem reset (id : Byte) (payload : List Byte) : Statement (.reset id payload) := fun h _ e => fits h e

theorem testOutputLevel (id : Byte) (rest : List Byte) : Statement (.testOutputLevel id rest) := fun h _ e => fitsForm h e

theorem testOutputPulse (id : Byte) (rest : List Byte) : Statement (.testOutputPulse id rest) := fun h _ e => fitsForm h e

theorem testOutputTarget (id : Byte) (rest : List Byte) : Statement (.testOutputTarget id rest) := fun h _ e => fitsForm h e

theorem closePocket (id : Byte) (payload : List Byte) : Statement (.closePocket id payload) := fun h _ e => fits h e

theorem holdPocket (id : Byte) (payload : List Byte) : Statement (.holdPocket id payload) := fun h _ e => fits h e

theorem releasePocket (id : Byte) (payload : List Byte) : Statement (.releasePocket id payload) := fun h _ e => fits h e

theorem clearPocket (id : Byte) (payload : List Byte) : Statement (.clearPocket id payload) := fun h _ e => fits h e

theorem pauseLabels (id : Byte) (payload : List Byte) : Statement (.pauseLabels id payload) := fun h _ e => fits h e

theorem resumeLabels (id : Byte) (payload : List Byte) : Statement (.resumeLabels id payload) := fun h _ e => fits h e

theorem skipLabel (id : Byte) (payload : List Byte) : Statement (.skipLabel id payload) := fun h _ e => fits h e

theorem reprintLabel (id : Byte) (payload : List Byte) : Statement (.reprintLabel id payload) := fun h _ e => fits h e

theorem getState (id : Byte) (payload : List Byte) : Statement (.getState id payload) := fun h _ e => fits h e

theorem getStrip (id : Byte) (payload : List Byte) : Statement (.getStrip id payload) := fun h _ e => fits h e

theorem getPocket (id : Byte) (payload : List Byte) : Statement (.getPocket id payload) := fun h _ e => fits h e

theorem getLabels (id : Byte) (payload : List Byte) : Statement (.getLabels id payload) := fun h _ e => fits h e

theorem getCounts (id : Byte) (payload : List Byte) : Statement (.getCounts id payload) := fun h _ e => fits h e

theorem clearCounts (id : Byte) (payload : List Byte) : Statement (.clearCounts id payload) := fun h _ e => fits h e

theorem getList (id : Byte) (payload : List Byte) : Statement (.getList id payload) := fun h _ e => fits h e

theorem bothPhasesChange (sec : Sec) : Statement (.bothPhasesChange sec) := fun _ _ e => nomatch e

theorem malformedScanFrame : Statement .malformedScanFrame := fun _ _ e => nomatch e

theorem printerMalformedFrame (kind id : Byte) (payload : List Byte) : Statement (.printerMalformedFrame kind id payload) := fun h _ e => fits (Bool.and_eq_true_iff.1 h).1 e

end Text

end Sys2Proof.Laws
end

