-- ==== Sys2Proof/Laws/Pieces.lean ====
section
/-! SUPPORT. What the pocket unit changes when a placement is made, handed back, closed or granted a label: pockets,
labels, the report queue and the host link's transmitter, and nothing else; and what a stored disposition and an unscanned
mark do. -/

namespace Sys2Proof.Machine

open Sys2Proof.Config

namespace State

/-- Of a state only pockets, labels, reports, the transmitter and the waiting reply are changed. -/
def PocketsMoved (s t : State) : Prop := ∃ ps ls q tx w,
  t = { s with pockets := ps, labels := ls, reports := q, host := { s.host with tx := tx, waiting := w } }

variable {s t u : State}

theorem PocketsMoved.refl (s : State) : s.PocketsMoved s := ⟨s.pockets, s.labels, s.reports, s.host.tx, s.host.waiting, rfl⟩

theorem PocketsMoved.trans (h : s.PocketsMoved t) (k : t.PocketsMoved u) : s.PocketsMoved u := by
  obtain ⟨_, _, _, _, _, rfl⟩ := h
  obtain ⟨ps, ls, q, tx, w, rfl⟩ := k
  exact ⟨ps, ls, q, tx, w, rfl⟩

/-! What such a change keeps. -/

theorem PocketsMoved.pool (h : s.PocketsMoved t) : t.pool = s.pool := by obtain ⟨_, _, _, _, _, rfl⟩ := h; rfl
theorem PocketsMoved.secs (h : s.PocketsMoved t) : t.secs = s.secs := by obtain ⟨_, _, _, _, _, rfl⟩ := h; rfl
theorem PocketsMoved.cuts (h : s.PocketsMoved t) : t.cuts = s.cuts := by obtain ⟨_, _, _, _, _, rfl⟩ := h; rfl
theorem PocketsMoved.scan (h : s.PocketsMoved t) : t.scan = s.scan := by obtain ⟨_, _, _, _, _, rfl⟩ := h; rfl
theorem PocketsMoved.solver (h : s.PocketsMoved t) : t.solver = s.solver := by obtain ⟨_, _, _, _, _, rfl⟩ := h; rfl
theorem PocketsMoved.out (h : s.PocketsMoved t) : t.out = s.out := by obtain ⟨_, _, _, _, _, rfl⟩ := h; rfl
theorem PocketsMoved.run (h : s.PocketsMoved t) : t.run = s.run := by obtain ⟨_, _, _, _, _, rfl⟩ := h; rfl

/-! ### The operations -/

theorem PocketsMoved.modPocket (h : s.PocketsMoved t) (p : Fin 12) (f : Pocket → Pocket) :
    s.PocketsMoved (t.modPocket p f) :=
  h.trans ⟨_, t.labels, t.reports, t.host.tx, t.host.waiting, rfl⟩

theorem PocketsMoved.modBundle (h : s.PocketsMoved t) (p : Fin 12) (f : Bundle → Bundle) :
    s.PocketsMoved (t.modBundle p f) := h.modPocket p _

theorem PocketsMoved.offer (h : s.PocketsMoved t) (r : Report) : s.PocketsMoved (t.offer r) := by
  obtain ⟨q, tx, w, e⟩ := offer_changes r t
  exact h.trans ⟨t.pockets, t.labels, q, tx, w, e⟩

theorem PocketsMoved.movePocket (h : s.PocketsMoved t) (p : Fin 12) (new : PocketState) (event : PocketEvent)
    (serial : Nat) : s.PocketsMoved (t.movePocket p new event serial) := (h.modPocket p _).offer _

theorem PocketsMoved.labels (h : s.PocketsMoved t) (c : LabelChannel) : s.PocketsMoved { t with labels := c } :=
  h.trans ⟨t.pockets, c, t.reports, t.host.tx, t.host.waiting, rfl⟩

theorem PocketsMoved.compose (h : s.PocketsMoved t) (p : Fin 12) (b : Bundle) : s.PocketsMoved (t.compose p b) := by
  unfold State.compose
  obtain ⟨c, e⟩ := trySend_changes (t.modLabels fun c => { c with
    queue := c.queue ++ [t.composed p b]
    serial := stepSerial t.nextSerial })
  rw [e]
  exact (h.labels _).labels c

theorem PocketsMoved.labelBundle (h : s.PocketsMoved t) (p : Fin 12) (b : Bundle) :
    s.PocketsMoved (t.labelBundle p b) := ((h.compose p b).modBundle p _).movePocket p _ _ _

/-- The closing test (R144). -/
theorem PocketsMoved.closingTest (h : s.PocketsMoved t) (p : Fin 12) : s.PocketsMoved (t.closingTest p) := by
  unfold State.closingTest
  repeat' split
  · exact (h.modPocket p _).offer _
  · exact h.labelBundle p _
  · exact (h.modBundle p _).movePocket p _ _ _
  all_goals exact h

/-- The grant of a freed label entry (R145). -/
theorem PocketsMoved.grant (h : s.PocketsMoved t) : s.PocketsMoved t.grant := by
  unfold State.grant
  repeat' split
  all_goals first | exact h | exact h.labelBundle _ _

/-- The full test, with the closing test of a bundle that it closes (R137). -/
theorem PocketsMoved.fullTest (h : s.PocketsMoved t) (p : Fin 12) : s.PocketsMoved (t.fullTest p) := by
  unfold State.fullTest
  repeat' split
  all_goals first | exact h | exact ((h.modBundle p _).movePocket p _ _ _).closingTest p

theorem PocketsMoved.openBundle (h : s.PocketsMoved t) (p : Fin 12) : s.PocketsMoved (t.openBundle p) := by
  unfold State.openBundle
  split
  · exact (h.modPocket p _).movePocket p _ _ _
  · exact h

theorem PocketsMoved.unreserve (h : s.PocketsMoved t) (pl : Placement) : s.PocketsMoved (t.unreserve pl) :=
  h.modBundle pl.pocket _

/-! ### The records are of no account to reports and closing tests -/

theorem arbitrate_withPool (q : Pool) (s : State) : ({ s with pool := q } : State).arbitrate = { s.arbitrate with pool := q } := by
  unfold arbitrate
  dsimp only
  repeat' split
  all_goals rfl

theorem offer_withPool (q : Pool) (r : Report) (s : State) :
    ({ s with pool := q } : State).offer r = { s.offer r with pool := q } := by
  have e : ({ s with pool := q } : State).enqueueReport r = { s.enqueueReport r with pool := q } := rfl
  have m : ({ s with pool := q } : State).masked r = s.masked r := rfl
  have h : ({ s with pool := q } : State).hasRoom r = s.hasRoom r := rfl
  unfold offer
  rw [e, m, h, arbitrate_withPool]
  dsimp only
  repeat' split
  all_goals rfl

theorem trySend_withPool (q : Pool) (s : State) : ({ s with pool := q } : State).trySend = { s.trySend with pool := q } := by
  unfold trySend
  have p : ({ s with pool := q } : State).flowPermits = s.flowPermits := rfl
  have f : ({ s with pool := q } : State).firstQueued = s.firstQueued := rfl
  rw [p, f]
  dsimp only
  repeat' split
  all_goals rfl

theorem movePocket_withPool (q : Pool) (p : Fin 12) (new : PocketState) (event : PocketEvent) (n : Nat) (s : State) :
    ({ s with pool := q } : State).movePocket p new event n = { s.movePocket p new event n with pool := q } :=
  offer_withPool q _ (s.modPocket p (fun k => { k with state := new }))

theorem compose_withPool (q : Pool) (p : Fin 12) (b : Bundle) (s : State) :
    ({ s with pool := q } : State).compose p b = { s.compose p b with pool := q } :=
  trySend_withPool q (s.modLabels (fun c => { c with
    queue := c.queue ++ [s.composed p b]
    serial := stepSerial s.nextSerial }))

theorem labelBundle_withPool (q : Pool) (p : Fin 12) (b : Bundle) (s : State) :
    ({ s with pool := q } : State).labelBundle p b = { s.labelBundle p b with pool := q } := by
  rw [labelBundle, compose_withPool]
  exact movePocket_withPool q p .closed .closed s.nextSerial
    ((s.compose p b).modBundle p (fun x => { x with label := .labelled s.nextSerial }))

/-- What a record holds is of no account to the closing test. -/
theorem closingTest_withPool (q : Pool) (p : Fin 12) (s : State) :
    ({ s with pool := q } : State).closingTest p = { s.closingTest p with pool := q } := by
  have k : ({ s with pool := q } : State).pocket p = s.pocket p := rfl
  have l : ({ s with pool := q } : State).labelRoom = s.labelRoom := rfl
  unfold closingTest
  rw [k, l]
  dsimp only
  repeat' split
  · exact offer_withPool q _ (s.modPocket p (fun k => { k with state := .empty, bundle := none }))
  · exact labelBundle_withPool q p _ s
  · exact movePocket_withPool q p .closing .labelWait 0 (s.modBundle p (fun b => { b with label := .waiting }))
  all_goals rfl

theorem closingTest_setRecord (i : Fin 64) (r : Record) (p : Fin 12) (s : State) :
    (s.setRecord i r).closingTest p = (s.closingTest p).setRecord i r := by
  have k : (s.closingTest p).pool = s.pool := ((PocketsMoved.refl s).closingTest p).pool
  have e := closingTest_withPool { s.pool with records := s.pool.records.set i r } p s
  rw [setRecord, e, setRecord, k]

/-- Only a CLOSING pocket is acted on by the closing test. -/
theorem closingTest_of_state {p : Fin 12} (h : (s.pocket p).state ≠ .closing) : s.closingTest p = s := by
  unfold closingTest
  split
  · contradiction
  · rfl

/-- The pocket of a hand-back's placement takes the closing test after the reservation is taken out; the record loses the
placement (R138). -/
theorem handBack_placed {i : Fin 64} {pl : Placement} (h : (s.record i).placement = some pl) (live : s.live i = true) :
    s.handBack i = ((s.unreserve pl).setRecord i { s.record i with placement := none }).closingTest pl.pocket := by
  have k : (s.unreserve pl).live i = s.live i := rfl
  have r : (s.unreserve pl).record i = s.record i := rfl
  simp [handBack, dropPlacement, h, writeRecord, k, r, live]

theorem handBack_unplaced {i : Fin 64} (h : (s.record i).placement = none) : s.handBack i = s := by
  simp [handBack, h]

/-! ### Dispositions (R6, R7, R62) -/

/-- A BIN or RUNOFF disposition stored hands the placement back and changes the record's disposition and placement alone. -/
theorem putDisposition_eq {s : State} {i : Fin 64} {d : Disposition} (out : d.isBinOrRunoff = true)
    (live : s.live i = true) :
    s.putDisposition i d = (s.handedBack (s.record i)).setRecord i { s.record i with
      disp := d
      placement := none } := by
  have w : s.writeRecord i (fun r => { r with disp := d })
      = s.setRecord i { s.record i with disp := d } := by simp [writeRecord, live]
  have p : (s.putDisposition i d) = (s.setRecord i { s.record i with disp := d }).handBack i := by
    rw [putDisposition, w]; simp [out]
  rw [p, handedBack]
  cases h : (s.record i).placement with
  | none =>
    rw [handBack_unplaced (by rw [record_setRecord]; exact h)]
    dsimp only
    rw [← h]
  | some pl =>
    have l : (s.setRecord i { s.record i with disp := d }).live i = true := by
      simpa [State.live] using live
    rw [handBack_placed (by rw [record_setRecord]; exact h) l, closingTest_setRecord, record_setRecord]
    have u : (s.setRecord i { s.record i with disp := d }).unreserve pl
        = (s.withoutPlacement pl).setRecord i { s.record i with disp := d } := rfl
    rw [u, closingTest_setRecord]
    simp [setRecord]

/-- A live strip is unscanned (R62). -/
theorem markUnscanned_eq {s : State} {i : Fin 64} (live : s.live i = true) :
    s.markUnscanned i = s.unscannedAs i (s.record i) := by
  have run : (s.handedBack (s.record i)).run = s.run := by
    unfold handedBack
    split
    · exact ((PocketsMoved.refl s).modPocket _ _ |>.closingTest _).run
    · rfl
  have k := putDisposition_eq (d := .bin s.run.settings.regrade .unscanned) rfl live
  unfold markUnscanned unscannedAs writeDisposition State.regrade
  cases e : (s.record i).disp with
  | runoff why =>
    have r : s.setRecord i (s.record i) = s := by simp [setRecord, record]
    simp [Disposition.takes, r]
  | undecided => simp [k, live, Disposition.takes, Disposition.rank, Disposition.reason, modCounters, setRecord, run]
  | pocket p => simp [k, live, Disposition.takes, Disposition.rank, Disposition.reason, modCounters, setRecord, run]
  | bin q why =>
    cases why <;> simp [k, live, Disposition.takes, Disposition.rank, Disposition.reason, modCounters, setRecord, run]

/-- The hand-back of a record's placement, whatever the record holds beside it. -/
theorem handedBack_setRecord (i : Fin 64) (r q : Record) (s : State) :
    (s.setRecord i r).handedBack q = (s.handedBack q).setRecord i r := by
  unfold handedBack
  split
  · exact closingTest_setRecord i r _ (s.withoutPlacement _)
  · rfl

/-- A face of a live strip leaves AWAITING badly (R55, R56, R60, R62). -/
theorem spoilFace_eq {s : State} {i : Fin 64} {f : Face} {st : FaceStatus} (live : s.live i = true) :
    s.spoilFace i f st = s.unscannedAs i ((s.record i).setFace f st) := by
  have l : (s.setRecord i ((s.record i).setFace f st)).live i = true := by
    cases f <;> simpa [State.live, Record.setFace] using live
  have w : s.writeRecord i (fun r => r.setFace f st) = s.setRecord i ((s.record i).setFace f st) := by
    simp [writeRecord, live]
  rw [spoilFace, w, markUnscanned_eq l, record_setRecord]
  unfold unscannedAs
  dsimp only
  rw [handedBack_setRecord]
  split <;> simp [setRecord]

end State

end Sys2Proof.Machine
end

