-- ==== Sys2Proof/Tests/Slice0.lean ====
section
/-! SUPPORT. Tests: the checks of well-formedness, worked cases of the manual, and for each obligation with hypotheses
a state and operands that meet them. -/

namespace Sys2Proof.Tests

open Sys2Proof Sys2Proof.Machine Sys2Proof.Config

set_option Elab.async false

/-! ### Well-formedness: each check refuses an ill-formed command -/

theorem test_refuses_long_payload : (Instr.setSection 0 (List.replicate 241 0)).wellFormed = false := by decide +kernel
theorem test_takes_full_payload : (Instr.setSection 0 (List.replicate 240 0)).wellFormed = true := by decide +kernel
theorem test_refuses_long_test_output : (Instr.testOutputLevel 0 (List.replicate 240 0)).wellFormed = false := by
  decide +kernel
theorem test_refuses_assigned_kind : (Instr.unknownKind 0x10 0 []).wellFormed = false := by decide +kernel
theorem test_refuses_kind_of_no_request : (Instr.unknownKind 0x40 0 []).wellFormed = false := by decide +kernel
theorem test_takes_unassigned_kind : (Instr.unknownKind 0x0F 0 []).wellFormed = true := by decide +kernel
theorem test_refuses_frame_error_of_no_byte : (Instr.frameError .host []).wellFormed = false := by decide +kernel
theorem test_takes_frame_error_of_a_byte : (Instr.frameError .scan [.error]).wellFormed = true := by decide +kernel
theorem test_refuses_good_printer_frame : (Instr.printerMalformedFrame 0x11 0 [0, 0, 0, 1]).wellFormed = false := by
  decide +kernel

/-! ### Worked cases of the manual -/

/-- The check value of the CRC over the characters 1 to 9 (R186). -/
theorem test_crc_check_value :
    crc16 [0x31, 0x32, 0x33, 0x34, 0x35, 0x36, 0x37, 0x38, 0x39] = 0x29B1 := by decide +kernel

/-- A SCAN_END frame by its bytes joins the intake queue; without its last byte a gap is a link error (R187). -/
theorem test_frame_by_bytes :
    let f : Frame := ⟨0x12, 7, [0, 7, 1, 0]⟩
    ((State.reset.takeBytes .scan (f.bytes.map .good)).scan.queue = [f]
      ∧ (State.reset.takeBytes .scan (f.bytes.map .good)).host.rxScan = .hunting)
    ∧ (State.reset.takeBytes .scan (f.bytes.dropLast.map .good)).host.rxScan = .receiving f.bytes.dropLast.tail
    ∧ ((State.reset.takeBytes .scan (f.bytes.dropLast.map .good)).gap .scan).scan.linkErr = 1 := by decide +kernel

/-- The step of a trend truncates toward zero (R95). -/
theorem test_trend_truncates : trendStep 3 (-1) 0 = -1 ∧ trendStep 3 0 1 = 2 ∧ trendStep 1 5 (-1) = -5 := by
  decide +kernel

/-- The serial counter and the tag counter pass over their ends (R10, R156). -/
theorem test_counters_wrap : stepTag 65535 = 1 ∧ stepSerial 99999999 = 1 ∧ pickTag [65535, 1] 65 65535 = 2 := by
  decide +kernel

/-- A position is reached within half the range (R26). -/
theorem test_reached : reached 0x800000 1 = true ∧ reached 0x800000 0 = false ∧ reached 3 0xFFFFFF = true := by
  decide +kernel

/-- A RUNOFF is final, and the kinds only rise (R6). -/
theorem test_ranking : (Disposition.runoff .lost).takes (.runoff .suspect) = false
    ∧ (Disposition.pocket 0).takes (.bin none .unscanned) = true
    ∧ (Disposition.bin none .noFit).takes (.pocket 0) = false := by decide +kernel

/-! ### States that the witnesses stand on -/

/-- A line that runs. -/
def running : State := { State.reset with run := { State.reset.run with state := .run } }

/-- A pool with one live record, index 5, at the head of a section's list. -/
def poolOf (x : Sec) (r : Record) : Pool :=
  { records := (Vector.replicate 64 {}).set 5 r
    free := (List.finRange 64).filter (fun i => decide (i ≠ 5))
    onSec := (Vector.replicate 4 []).set x.idx [5]
    tagCounter := 8 }

/-- The record of the one live strip. -/
def strip : Record := { tag := 7, loc := .s1, len := 1000, lead := 100 }

/-- A running line with one strip on S1. -/
def oneStrip (r : Record) : State := { running with pool := poolOf .s1 r }

/-- A frame at the head of the intake queue. -/
def withFrame (f : Frame) (s : State) : State := { s with scan := { s.scan with queue := [f] } }

/-- A label entry. -/
def entry (status : LabelStatus) (copies : Nat) : LabelEntry where
  serial := 9
  pocket := 2
  grade := 0
  name := Vector.replicate 8 0x41
  species := Vector.replicate 4 0x42
  lot := Vector.replicate 8 0x43
  pieces := 3
  total := 4000
  area := 0
  histogram := Vector.replicate 8 0
  closeReason := .full
  copies := copies
  status := status

/-- A label channel that holds an entry. -/
def channel (state : ChanState) (e : LabelEntry) (f : LabelChannel → LabelChannel) : State :=
  { State.reset with labels := f { State.reset.labels with state := state, queue := [e] } }

/-- A section unit changed in a state. -/
def unit (s : State) (f : SectionUnit → SectionUnit) : State := s.setSec .s1 (f (s.sec .s1))

/-- An armed pair. -/
def pairAt (shown : Combo) (dead : Nat) (timer : Option Nat) (target : Option Combo) : Pair :=
  { first := 3, second := 4, dead := dead, safe := ⟨false, false⟩, shown := shown, timer := timer, target := target }

/-- Every record of the pool but the live one is blank. -/
theorem test_pool_record (x : Sec) (r : Record) (i : Fin 64) (h : i ≠ 5) : (poolOf x r).records[i] = {} := by
  have k : 5 ≠ i.val := fun e => h (Fin.ext e.symm)
  simp [poolOf, k]

/-- One live strip on the section that its location names keeps the partition. -/
theorem test_partitioned (x : Sec) (r : Record) (loc : r.loc = locOf x) : (poolOf x r).Partitioned where
  freeNodup := List.Nodup.filter (fun i => decide (i ≠ 5)) (List.nodup_finRange 64)
  secNodup := fun y => by cases x <;> cases y <;> simp [poolOf]
  free := fun i => by
    by_cases h : i = 5
    · subst h; cases x <;> simp [poolOf, loc, locOf]
    · rw [test_pool_record x r i h]; simp [poolOf, h]
  onSec := fun y i => by
    by_cases h : i = 5
    · subst h; cases x <;> cases y <;> simp [poolOf, loc, locOf]
    · rw [test_pool_record x r i h]; cases x <;> cases y <;> simp [poolOf, h, locOf]
  blank := fun i k => by
    by_cases h : i = 5
    · subst h; cases x <;> simp [poolOf, loc, locOf] at k
    · exact test_pool_record x r i h

/-- An armed pair whose dead time runs is guarded, and a state that holds it. -/
theorem test_guarded : (State.reset.setPair 0 (some (pairAt ⟨false, false⟩ 250 (some 9) (some ⟨true, false⟩)))).PairsGuarded := by
  intro p q h
  have e : ∀ p : Fin 6, p ≠ 0 →
      (State.reset.setPair 0 (some (pairAt ⟨false, false⟩ 250 (some 9) (some ⟨true, false⟩)))).pair p = none := by
    decide +kernel
  by_cases hp : p = 0
  · subst hp
    have : q = pairAt ⟨false, false⟩ 250 (some 9) (some ⟨true, false⟩) := by
      have k : (State.reset.setPair 0 (some (pairAt ⟨false, false⟩ 250 (some 9) (some ⟨true, false⟩)))).pair 0
          = some (pairAt ⟨false, false⟩ 250 (some 9) (some ⟨true, false⟩)) := by decide +kernel
      exact (Option.some.inj (k.symm.trans h)).symm
    subst this
    exact ⟨by decide +kernel, by decide +kernel, by decide +kernel, fun c hc => by
      have : c = ⟨true, false⟩ := (Option.some.inj hc).symm
      subst this; decide +kernel⟩
  · rw [e p hp] at h; exact absurd h (by simp)

/-! ### Witnesses: for each obligation with hypotheses, states and operands that meet them, clause by clause -/

theorem test_witness_StepRunsFrontCommand : State.reset.pending = [] := rfl

/-- The three invariants hold before a step that goes. -/
theorem test_witness_StepKeeps : ∃ s t, s.Bounded ∧ s.pool.Partitioned ∧ step s = .next t :=
  ⟨{ oneStrip strip with pending := [.haltLine 0 []] }, _,
    { reports := by decide +kernel, requests := by decide +kernel, starts := by decide +kernel
      intake := by decide +kernel, labels := by decide +kernel, schedules := fun x => by cases x <;> decide +kernel },
    test_partitioned .s1 _ rfl, rfl⟩

theorem test_witness_StepKeepsPairsGuarded : ∃ s t, s.PairsGuarded ∧ (s.pair 0).isSome = true ∧ step s = .next t :=
  ⟨State.reset.setPair 0 (some (pairAt ⟨false, false⟩ 250 (some 9) (some ⟨true, false⟩))), _, test_guarded,
    by decide +kernel, rfl⟩

/-- No feed-hold line, and one that is free and one that is in a pair. -/
theorem test_witness_SoftReset :
    let s : State := { State.reset with run := { settings := { feedLine := some 3 } } }
    State.reset.run.settings.feedLine ≠ some 0 ∧ State.reset.cuts.sawLine = none
    ∧ s.run.settings.feedLine = some 3 ∧ s.pairOf 3 = none
    ∧ ((s.setPair 0 (some (pairAt ⟨false, false⟩ 0 none none))).pairOf 3).isSome = true := by decide +kernel

/-- Forward at the accumulator's last held value, and backward at its first. The first clause asks for nothing. -/
theorem test_witness_RawCounts :
    (let s := unit State.reset (fun u => { u with acc := 2, cfg := { u.cfg with divider := 3 } });
      (((!s.pins.phaseA[0]) != s.pins.phaseB[0]) != (s.sec .s1).cfg.inverted) = true
      ∧ (s.sec .s1).acc < (s.sec .s1).cfg.divider)
    ∧ (let s := unit State.reset (fun u => { u with acc := 1 });
      ((s.pins.phaseA[0] == (!s.pins.phaseB[0])) != (s.sec .s1).cfg.inverted) = false ∧ 0 < (s.sec .s1).acc) := by
  decide +kernel

theorem test_witness_CounterSteps_forward :
    let s := unit running (fun u => { u with acc := 3, cfg := { u.cfg with divider := 3 } });
    (s.togglePhase .s1 .a).countsForward .s1 .a = true ∧ (s.sec .s1).acc = (s.sec .s1).cfg.divider
      ∧ ((s.togglePhase .s1 .a).setSec .s1 { s.sec .s1 with acc := 0, counter := 1, highMark := 1 }).due (some .s1)
        = [] := by
  decide +kernel

/-- Backward outside RUN, and inside at the reversal limit. -/
theorem test_witness_CounterSteps_backward :
    (State.reset.togglePhase .s1 .b).countsForward .s1 .b = false ∧ (State.reset.sec .s1).acc = 0
    ∧ State.reset.running = false
    ∧ (let s := unit running (fun u => { u with counter := 6, highMark := 10, cfg := { u.cfg with reversal := 5 } });
      (s.togglePhase .s1 .b).countsForward .s1 .b = false ∧ (s.sec .s1).acc = 0 ∧ s.running = true
      ∧ ((s.sec .s1).highMark - ((s.sec .s1).counter - 1)).toNat ≤ (s.sec .s1).cfg.reversal) := by
  decide +kernel

/-- One count beyond the reversal limit. -/
theorem test_witness_CounterSteps_halt :
    let s := unit (oneStrip strip) (fun u => { u with counter := 5, highMark := 10, cfg := { u.cfg with reversal := 5 } })
    s.pool.Partitioned ∧ s.running = true ∧ (s.togglePhase .s1 .b).countsForward .s1 .b = false ∧ (s.sec .s1).acc = 0
      ∧ (s.sec .s1).cfg.reversal < ((s.sec .s1).highMark - ((s.sec .s1).counter - 1)).toNat :=
  ⟨test_partitioned .s1 _ rfl, by decide +kernel⟩

/-- The four cases of an eye, with debounce 1, 15 and 0. -/
theorem test_witness_EyeInputChange :
    (State.reset.sec .s1).blocked = false
    ∧ (let s := unit State.reset (fun u => { u with pending := some ⟨true, 4⟩ })
      true ≠ (s.sec .s1).blocked ∧ (s.sec .s1).pending.isSome = true)
    ∧ (∀ d ∈ [1, 15],
      let s := unit State.reset (fun u => { u with cfg := { u.cfg with debounce := d } })
      true ≠ (s.sec .s1).blocked ∧ (s.sec .s1).pending = none ∧ 1 ≤ (s.sec .s1).cfg.debounce
        ∧ (s.sec .s1).cfg.debounce ≤ 15)
    ∧ (let s := State.reset
      true ≠ (s.sec .s1).blocked ∧ (s.sec .s1).pending = none ∧ (s.sec .s1).cfg.debounce = 0 ∧ s.running = false
      ∧ (State.setSec .s1 { s.sec .s1 with blocked := true, edges := 1 }
        { s with pins := { s.pins with eyes := s.pins.eyes.set 0 true } }).due none = []) := by
  decide +kernel

theorem test_witness_LengthConversions :
    10 ≤ ({ scale := 10 } : SectionCfg).scale ∧ ({ scale := 5000 } : SectionCfg).scale ≤ 5000 := by decide

/-- The intake queue with its last free place, and full. -/
theorem test_witness_ScanLinkQueues :
    (∃ s : State, s.scan.queue.length = 23) ∧ (∃ s : State, 24 ≤ s.scan.queue.length) :=
  ⟨⟨{ State.reset with scan := { queue := List.replicate 23 ⟨0, 0, []⟩ } }, by decide +kernel⟩,
    ⟨{ State.reset with scan := { queue := List.replicate 24 ⟨0, 0, []⟩ } }, by decide +kernel⟩⟩

/-- Malformed frames of each kind, one of no kind, and one in good form; with a readable head and with none. -/
theorem test_witness_ScanLinkQueues_intake :
    (∀ k ∈ ([0x11, 0x12, 0x13, 0x14] : List Byte), (withFrame ⟨k, 0, []⟩ State.reset).scan.queue = [⟨k, 0, []⟩])
    ∧ State.reset.running = false ∧ running.running = true ∧ parseDefects [] = none ∧ parseScanEnd [] = none
    ∧ parseProfile [] = none ∧ parseScanEnd [0, 7, 1, 0] ≠ none ∧ readableHead 0x14 [] = none
    ∧ readableHead 0x11 [0, 7, 1] = some .top ∧ parseDefects [0, 7, 1] = none := by
  decide +kernel

/-- A line with one strip, tag 7, and head 1 as given. -/
def headed (u : HeadUnit) (r : Record) : State :=
  { oneStrip r with scan := { running.scan with top := u } }

/-- A head is judged at its limits: a bad frame at 35, at 36 and at 60, and a good one at 9, at 10 and at 0. -/
theorem test_head_judged :
    (∀ n ∈ [35, 36], let t := (headed { errors := n } strip).judged .top true
      t.scan.top = { errors := n + 4, degraded := decide (n = 36) }
      ∧ t.reports.queue.map QueuedReport.body = if n = 36 then [.link .top true 40] else [])
    ∧ ((headed { errors := 60, degraded := true } strip).judged .top true).scan.top = { errors := 63, degraded := true }
    ∧ (∀ n ∈ [9, 10], let t := (headed { errors := n, degraded := true } strip).judged .top false
      t.scan.top = { errors := n - 1, degraded := decide (n = 10) }
      ∧ t.reports.queue.map QueuedReport.body = if n = 9 then [.link .top false 8] else [])
    ∧ ((headed {} strip).judged .top false).scan.top = {} := by
  decide +kernel

/-- Frames of a tag that no record holds, and late ones. -/
theorem test_witness_ScanLinkQueues_tags :
    (parseDefects [0, 9, 1, 1, 0x31, 0, 10, 0, 20, 0]).map DefectsFrame.tag = some 9 ∧ (oneStrip strip).findTag 9 = none
    ∧ parseScanEnd [0, 0, 1, 0] = some (0, .top, 0) ∧ (oneStrip strip).findTag 0 = none
    ∧ parseProfile [0, 7, 0, 1, 0, 1, 0, 1, 0, 1] = some (7, Vector.replicate 4 1)
    ∧ (∀ r ∈ [{ strip with committed := true, sortCommitted := true }, { strip with top := .complete, profile := .pass }],
      (oneStrip r).findTag 7 = some 5 ∧ ((oneStrip r).record 5 = r)
      ∧ (r.committed = true ∨ r.face .top ≠ .awaiting) ∧ (r.sortCommitted = true ∨ r.profile ≠ .awaiting)) := by
  decide +kernel

/-- A DEFECTS frame of one entry for tag 7, face top. -/
def defectsPayload : List Byte := [0, 7, 1, 1, 0x31, 0, 10, 0, 20, 0]

/-- The last entry that fits in the list and the first that does not, of a NORMAL and of a DEGRADED head. -/
theorem test_witness_DefectsAttach :
    ∀ n ∈ [15, 16], ∀ bad : Bool,
      let s := withFrame ⟨0x11, 0, defectsPayload⟩ (headed { errors := 40, degraded := bad } { strip with
        defects := List.replicate n ⟨0, .top, 0, 0, 0⟩ })
      s.running = true ∧ s.scan.queue = [⟨0x11, 0, defectsPayload⟩]
      ∧ parseDefects defectsPayload = some ⟨7, .top, [⟨3, 1, 10, 20⟩], false⟩ ∧ s.findTag 7 = some 5
      ∧ (s.record 5).committed = false ∧ (s.record 5).face .top = .awaiting
      ∧ (s.head Face.top.head).degraded = bad ∧ ((s.record 5).defects.length + 1 ≤ 16 ↔ n = 15) := by
  decide +kernel

/-- A face closed with its tally met, the first and the second of the two, with a solve in flight and with none; a tally
not met; and a DEGRADED head. -/
theorem test_witness_ScanEndCloses :
    (∀ b ∈ [FaceStatus.awaiting, .complete], ∀ flight ∈ [none, some (⟨6, Vector.replicate 8 none⟩ : Flight)],
      let s := withFrame ⟨0x12, 0, [0, 7, 1, 0]⟩ { oneStrip { strip with bottom := b } with
        solver := { running.solver with flight := flight } }
      s.running = true ∧ s.scan.queue = [⟨0x12, 0, [0, 7, 1, 0]⟩] ∧ parseScanEnd [0, 7, 1, 0] = some (7, .top, 0)
      ∧ s.findTag 7 = some 5 ∧ (s.record 5).committed = false ∧ (s.record 5).face .top = .awaiting
      ∧ (s.head Face.top.head).degraded = false ∧ (s.tally 5 .top).count = 0 ∧ (s.tally 5 .top).more = false
      ∧ s.solver.flight = flight ∧ s.solver.queue = [] ∧ ((s.record 5).setFace .top .complete).disp = .undecided
      ∧ (((s.record 5).setFace .top .complete).bottom = .complete ↔ b = .complete))
    ∧ (∀ bad : Bool, let s := withFrame ⟨0x12, 0, [0, 7, 1, 1]⟩ (headed { errors := 9, degraded := bad } strip)
      parseScanEnd [0, 7, 1, 1] = some (7, .top, 1) ∧ s.findTag 7 = some 5 ∧ (s.tally 5 .top).count ≠ 1
      ∧ (s.head Face.top.head).degraded = bad) := by
  decide +kernel

/-- An IDLE solver with a strip in its queue. -/
theorem test_witness_ScanEndCloses_behind :
    let s : State := { (oneStrip { strip with bottom := .complete }).setRecord 6 { strip with tag := 8 } with
      solver := { running.solver with queue := [6] } }
    s.solver.flight = none ∧ s.solver.queue = 6 :: [] ∧ s.live 6 = true ∧ s.findTag 7 = some 5 := by
  decide +kernel

/-- The four dimensions 100, with a tolerance that the deviation meets, and one that it exceeds; a change of the
trend state at its limit; with checking off; and with a DEGRADED head. -/
theorem test_witness_ProfileJudged :
    ∀ tol ∈ [100, 99], ∀ warn ∈ [50, 51], ∀ on bad : Bool,
      let p : List Byte := [0, 7, 0, 100, 0, 100, 0, 100, 0, 100]
      let s := withFrame ⟨0x13, 0, p⟩ { oneStrip strip with
        check := { running.check with enable := on, dims := Vector.replicate 4 { tolerance := tol, warn := warn } }
        scan := { running.scan with profile := { errors := 9, degraded := bad } } }
      let d : Vector Int 4 := Vector.replicate 4 100
      s.running = true ∧ s.scan.queue = [⟨0x13, 0, p⟩] ∧ parseProfile p = some (7, Vector.replicate 4 100)
      ∧ s.findTag 7 = some 5 ∧ (s.record 5).sortCommitted = false ∧ (s.record 5).profile = .awaiting
      ∧ s.scan.profile.degraded = bad ∧ s.check.enable = on
      ∧ (∀ j : Fin 4, d[j] = (min 20000 100 : Nat) - (s.check.dims[j].nominal : Int))
      ∧ ({ s.check with trends := Vector.ofFn (fun j : Fin 4 =>
          s.check.trends[j] + Int.tdiv (16 * d[j] - s.check.trends[j]) (2 ^ s.check.shift)) }).nextState
        = (if warn = 50 then .warning else s.check.state)
      ∧ ((∀ j : Fin 4, d[j].natAbs ≤ s.check.dims[j].tolerance) ↔ tol = 100) := by
  decide +kernel

/-- A strip tested; the least and the greatest divisor, at the greatest trend, and a step of 0; a reset, a PROFILE row, and
a row that leaves the trends; and a step from the ends of the ranges. -/
theorem test_witness_TrendUpdates :
    ({ oneStrip strip with check := { enable := true } } : State).check.enable = true
    ∧ (320000 : Int).natAbs ≤ 320000 ∧ (-20000 : Int).natAbs ≤ 20000 ∧ (320000 : Int) ≠ 16 * -20000
    ∧ (16 * 20000 - 319745 : Int).natAbs < 2 ^ 8
    ∧ (∃ t, exec .softReset (oneStrip strip) = .next t)
    ∧ (∃ t, exec .profile (oneStrip strip) = .next t) ∧ (∃ t, exec (.setProfile 1 []) (oneStrip strip) = .next t)
    ∧ (let far : State := { State.reset with check := { State.reset.check with
        shift := 8
        dims := Vector.replicate 4 { nominal := 20000 }
        trends := Vector.replicate 4 (-320000) } }
      far.TrendsInRange ∧ ∃ t, step far = .next t) := by
  refine ⟨by decide +kernel, by decide, by decide, by decide, by decide, ⟨_, rfl⟩, ⟨_, rfl⟩, ⟨_, rfl⟩,
    ⟨by decide, by decide +kernel, by decide +kernel⟩, ⟨_, rfl⟩⟩

/-- A bank with one grade that admits any piece and a price. -/
def graded : BankTable :=
  { grades := Vector.replicate 8 { defined := true, lmin := 150 }
    prices := Vector.replicate 8 (Vector.replicate 8 65535) }

theorem test_witness_DefectsAndValue :
    (graded.prices[(0 : Fin 8)])[bandIdx graded.bands 3000] = 65535
    ∧ (valueOf {} (Vector.replicate 8 none) 1000 [] (0, 0)).grade = none := by decide +kernel

/-- A graded candidate at the shortest length that has one; two candidates of one length and lead trim; every candidate X,
and no candidate. -/
theorem test_witness_Selection :
    (select graded (Vector.replicate 8 none) 150 []).isSome = true ∧ (0, 0) ∈ graded.candidates 150
    ∧ (valueOf graded (Vector.replicate 8 none) 150 [] (0, 0)).grade.isSome = true
    ∧ ({} : BankTable).candidates 150 = [(0, 0)]
    ∧ (valueOf {} (Vector.replicate 8 none) 150 [] (0, 0)).grade = none ∧ ({} : BankTable).candidates 149 = [] := by
  decide +kernel

/-- A bank with one rule for grade 0 of class 3 on the top face, up to severity 2 and one defect. -/
def ruled : BankTable := { graded with
  rules := (Vector.replicate 48 {}).set 47
    { used := true, grade := 0, cls := 3, mask := 15, faces := .top, maxSeverity := 2, maxCount := 1 } }

/-- A defect that the last rule accepts and one of a severity above it; a count at the maximum and beyond it; grades 0, 1
and X. -/
theorem test_witness_GradeOfPiece :
    let d : Defect := ⟨3, .top, 20, 5, 2⟩
    ruled.acceptor 0 d = some 47 ∧ ruled.acceptor 0 ⟨3, .top, 20, 5, 3⟩ = none
    ∧ ruled.admits 0 150 [d] = true ∧ ruled.admits 0 150 [d, d] = false
    ∧ ruled.gradeOf 150 [d] = some 0 ∧ ruled.gradeOf 150 [d, d] = none ∧ graded.gradeOf 150 [] = some 0 := by
  decide +kernel

/-- Gaps at the two ends of the tolerance and just outside them; a grade with no target; grade X; a pocket that is a
target; the greatest value and bonus; and a row that fits exactly. -/
theorem test_witness_FillBonus :
    let snap (gap : Nat) : Vector (Option SnapTarget) 8 := Vector.replicate 8 (some ⟨0, 5, 50, 10, [gap]⟩);
    (∀ gap ∈ [154, 155, 165, 166], (valueOf graded (snap gap) 150 [] (0, 0)).grade = some 0
      ∧ ((valueOf graded (snap gap) 150 [] (0, 0)).bonus = true ↔ gap = 155 ∨ gap = 165))
    ∧ (Vector.replicate 8 (none : Option SnapTarget))[(0 : Fin 8)] = none
    ∧ (valueOf {} (snap 155) 150 [] (0, 0)).grade = none
    ∧ (let k : Pocket := { cfg := { rows := 1, rowLen := 2500 }, state := .empty }
      ({ State.reset with pockets := Vector.replicate 12 k } : State).snapTarget 0 |>.isSome)
    ∧ (196605 ≤ 196605 ∧ 50 ≤ 50)
    ∧ ({ cfg := { rows := 1, rowLen := 2500 }, state := .empty } : Pocket).fit 2500 = some 0 := by
  decide +kernel

/-- A solve in flight on the strip, with a bank, a length and pockets. -/
def solving (bank : BankTable) (len : Nat) (pockets : Vector Pocket 12) : State :=
  { oneStrip { strip with len := len, solve := .solving } with
    solver := { running.solver with bankA := bank, flight := some ⟨5, Vector.replicate 8 none⟩ }
    pockets := pockets }

/-- No candidate; grade X; a grade without a place; a grade with one. -/
theorem test_witness_SolveCompletes :
    let none' : Vector (Option SnapTarget) 8 := Vector.replicate 8 none
    let open' : Vector Pocket 12 := Vector.replicate 12 { cfg := { rows := 1, rowLen := 2500 }, state := .empty };
    (∀ q ∈ [solving {} 149 (Vector.replicate 12 {}), solving {} 150 (Vector.replicate 12 {}),
        solving graded 150 (Vector.replicate 12 {}), solving graded 150 open'],
      q.solver.flight = some ⟨5, none'⟩ ∧ q.solver.queue = [] ∧ q.live 5 = true ∧ (q.record 5).disp = .undecided
        ∧ (q.record 5).placement = none)
    ∧ select {} none' 149 [] = none ∧ (select {} none' 150 []).map Valued.grade = some none
    ∧ (select graded none' 150 []).map Valued.grade = some (some 0)
    ∧ (solving graded 150 (Vector.replicate 12 {})).placeAtCompletion 0 150 = none
    ∧ (solving graded 150 open').placeAtCompletion 0 150 = some (0, 0) := by
  decide +kernel

/-- Lines, a pair and the saw with timers that run. -/
theorem test_witness_OutputTimersExpire :
    let s (x : Line) : State := State.reset.modLine 2 (fun _ => x);
    ((s { state := .pulsing 9 }).line 2).state = .pulsing 9
    ∧ ((s { state := .held, phase := some (.full 9) }).line 2).phase = some (.full 9)
    ∧ (∀ n ∈ [9, 10], (s { state := .pulsing n, phase := some (.full 9) }).line 2
      = { state := .pulsing n, phase := some (.full 9) })
    ∧ (let t := s { cfg := { duty := .eighth }, state := .held, phase := some (.chopped true 9) };
      (t.line 2).phase = some (.chopped true 9) ∧ (t.line 2).cfg.duty ≠ .full)
    ∧ ((s { state := .held, phase := some (.chopped false 9) }).line 2).phase = some (.chopped false 9)
    ∧ (let q := pairAt ⟨false, false⟩ 250 (some 9) (some ⟨true, false⟩);
      (State.reset.setPair 5 (some q)).pair 5 = some q ∧ q.timer = some 9)
    ∧ ({ State.reset with out := { State.reset.out with saw := some 9 } } : State).out.saw = some 9 := by
  decide +kernel

/-- The forbidden combination; the four cases of a stopped dead time, with dead time 0 and 1; a running one. -/
theorem test_witness_PairTargets :
    (∀ q ∈ [pairAt ⟨false, true⟩ 0 none none, pairAt ⟨false, true⟩ 1 none none,
        pairAt ⟨false, false⟩ 250 (some 9) none], (State.reset.setPair 0 (some q)).pair 0 = some q)
    ∧ (let q := pairAt ⟨false, true⟩ 0 none none;
      (⟨true, true⟩ : Combo) = q.safe.complement ∧ (⟨false, true⟩ : Combo) ≠ q.safe.complement
      ∧ (⟨false, true⟩ : Combo) = q.shown ∧ (⟨false, false⟩ : Combo) = q.safe ∧ q.safe ≠ q.shown
      ∧ (⟨true, false⟩ : Combo) ≠ q.shown ∧ (⟨true, false⟩ : Combo) ≠ q.safe ∧ q.shown ≠ q.safe ∧ q.timer = none
      ∧ q.dead = 0)
    ∧ 0 < (pairAt ⟨false, true⟩ 1 none none).dead
    ∧ (pairAt ⟨false, false⟩ 250 (some 9) none).timer.isSome = true := by
  decide +kernel

/-- A clear input at rest, with a change pending, and with an edge at a bin and at a CLOSED pocket. -/
theorem test_witness_ClearInputFiltered :
    let due : Vector ClearFilter 12 := Vector.replicate 12 { level := false, pending := some 10 }
    let high : Vector ClearFilter 12 := Vector.replicate 12 { level := true, pending := some 10 }
    let s : State := State.reset
    let bin : Pocket := { cfg := { isBin := true }, state := .full, count := 3 }
    false = s.clears[(0 : Fin 12)].level ∧ true ≠ s.clears[(0 : Fin 12)].level ∧ s.clears[(0 : Fin 12)].pending = none
    ∧ true ≠ due[(0 : Fin 12)].level ∧ due[(0 : Fin 12)].pending = some 10 ∧ high[(0 : Fin 12)].level = true
    ∧ (s.pocket 0).state ∈ [.offline, .empty, .closing, .stalled]
    ∧ (let t := s.modPocket 0 (fun _ => bin);
      (t.pocket 0).cfg.isBin = true ∧ (t.pocket 0).state ∈ [PocketState.filling, .full])
    ∧ (let t := s.modPocket 0 (fun _ => { state := .closed, bundle := some { grade := 0, label := .labelled 9 } });
      (t.pocket 0).state = .closed ∧ t.labelDone 0 = false)
    ∧ ((s.modPocket 0 (fun _ => { state := .filling })).pocket 0).cfg.isBin = false := by
  decide +kernel

/-- A CLOSED pocket whose label entry is PRINTED, and one whose entry is SKIPPED. -/
theorem test_witness_ClearInputFiltered_labelled :
    ∀ st ∈ [LabelStatus.printed, .skipped],
      let t := (channel .idle (entry st 0) id).modPocket 0 (fun _ =>
        { state := .closed, bundle := some { grade := 0, label := .labelled 9 } })
      (t.pocket 0).state = .closed ∧ t.labelEntry 9 = some (entry st 0) ∧ t.labelDone 0 = true := by
  decide +kernel

/-- The last serial, held by an entry; a CLOSING bundle with a reservation, with no piece, with room for its label and with
none; and one that waits. -/
theorem test_witness_ClosingTests :
    let last : LabelEntry := { entry .printed 0 with serial := 99999999 }
    let s (n : Nat) (b : Bundle) : State := { State.reset.modPocket 2 (fun k => { k with
      state := .closing
      bundle := some b }) with labels := { queue := List.replicate n last, serial := 99999999 } };
    (s 8 { grade := 0 }).labels.queue.length ≤ 8 ∧ (s 8 { grade := 0 }).nextSerial = 1
    ∧ (s 0 { grade := 0 }).nextSerial = 99999999
    ∧ (∀ n ∈ [7, 8], ∀ pieces ∈ [0, 1], ((s n { grade := 0, pieces := pieces }).pocket 2).state = .closing
      ∧ (s n { grade := 0, pieces := pieces }).labels.queue.length = n)
    ∧ ((s 0 { grade := 0, reservations := 1 }).pocket 2).bundle = some { grade := 0, reservations := 1 }
    ∧ (s 7 { grade := 0, label := .waiting }).waiting 2 = true
    ∧ ∀ j : Fin 12, j < 2 → (s 7 { grade := 0, label := .waiting }).waiting j = false := by
  decide +kernel

/-- An IDLE channel with a QUEUED entry, in the three flow modes that wait, each short of its condition. -/
theorem test_witness_LabelSends :
    (∀ f ∈ [FlowMode.paced, .readyPulse, .readyLevel],
      let s := channel .idle (entry .queued 1) (fun c => { c with flow := f, prevSend := some 3 })
      s.labels.state = .idle ∧ s.labels.wire = none ∧ s.firstQueued = some (entry .queued 1)
      ∧ s.labels.flow = f ∧ s.labels.prevSend = some 3 ∧ s.labels.permit = false ∧ s.pins.ready = false
      ∧ ¬ (3 + s.labels.pace ≤ s.clock))
    ∧ (channel .idle (entry .queued 1) id).labels.flow = .free
    ∧ (channel .idle (entry .queued 1) id).firstQueued = some (entry .queued 1)
    ∧ (channel .idle (entry .printed 0) id).firstQueued = none := by
  decide +kernel

theorem test_witness_LabelSends_end :
    ∀ seen : Bool,
      let e := entry .sending 1
      let s := channel .sending e (fun c => { c with wire := some e.frame, current := some 9, stopSeen := seen })
      s.labels.wire = some e.frame ∧ s.labels.state = .sending ∧ s.labels.current = some e.serial
      ∧ s.labelEntry e.serial = some e := by
  decide +kernel

/-- A reply that is not matched; and a matched one, with the last copy and with one more, after a pause request, under
STOP, and without either. -/
theorem test_witness_PrinterAnswers :
    ¬ (State.reset.labels.state = .awaitAck ∧ State.reset.labels.current = some (9 : BitVec 32).toNat)
    ∧ (∀ copies ∈ [1, 2], ∀ pause stop : Bool,
      let e := entry .awaitAck copies
      let s := { channel .awaitAck e (fun c => { c with current := some 9, pausePending := pause }) with
        pins := { State.reset.pins with stop := stop } }
      s.labels.state = .awaitAck ∧ s.labels.current = some (9 : BitVec 32).toNat
      ∧ s.labelEntry (9 : BitVec 32).toNat = some e ∧ s.labels.pausePending = pause ∧ s.pins.stop = stop
      ∧ (1 < e.copies ∨ e.copies = 1)) := by
  decide +kernel

theorem test_witness_PrinterAnswers_timer :
    let e := entry .awaitAck 1
    let s := channel .awaitAck e (fun c => { c with current := some 9, ackTimer := some 2000 })
    s.labels.state = .awaitAck ∧ s.labels.current = some 9 ∧ s.labels.ackTimer = some 2000
      ∧ s.labelEntry 9 = some e := by
  decide +kernel

/-- READY becomes asserted where it may start a send, and where it starts none. -/
theorem test_witness_StopAndReadyChange_ready :
    ∀ f ∈ [FlowMode.readyLevel, .readyPulse], ∀ st ∈ [LabelStatus.queued, .printed],
      let s := channel .idle (entry st 1) (fun c => { c with flow := f })
      s.pins.ready = false ∧ s.labels.flow = f ∧ s.labels.permit = false ∧ (s.firstQueued = none ↔ st = .printed) := by
  decide +kernel

/-- READY and STOP in each case. -/
theorem test_witness_StopAndReadyChange :
    true ≠ State.reset.pins.ready ∧ State.reset.labels.flow = .free ∧ State.reset.pins.stop = false
    ∧ State.reset.labels.state = .idle
    ∧ (let s := channel .sending (entry .sending 1) (fun c => { c with
        current := some 9
        flow := .readyPulse
        permit := true })
      s.labels.flow = .readyPulse ∧ s.labels.permit = true ∧ s.labels.state = .sending ∧ s.labels.current = some 9)
    ∧ (∀ c ∈ [ChanState.awaitAck, .paused, .fault],
      (channel c (entry .failed 1) id).labels.state ∈ [ChanState.awaitAck, .paused, .fault])
    ∧ (let s := { channel .stopped (entry .printed 0) id with pins := { State.reset.pins with stop := true } }
      s.pins.stop = true ∧ s.labels.state = .stopped ∧ s.firstQueued = none)
    ∧ (channel .sending (entry .queued 1) id).labels.state = .sending
    ∧ (channel .sending (entry .queued 1) id).labels.current = none
    ∧ (channel .stopped (entry .queued 1) id).firstQueued.isSome = true
    ∧ (let s := { channel .paused (entry .printed 0) id with pins := { State.reset.pins with stop := true } }
      s.labels.state ≠ .stopped) := by
  decide +kernel

/-- Bytes beside the start byte, the first length that fails, a frame of no payload and of the longest, an ACK and a NAK
of the last serial and another printer frame, CRC bytes that do not match, and a readable head in RUN. -/
theorem test_witness_Reception :
    (∀ link ∈ [Link.host, .scan, .printer], State.reset.receiver link = .hunting)
    ∧ (0x5B : Byte) ≠ 0x5A ∧ 240 < (241 : Byte).toNat
    ∧ (∀ n ∈ [0, 240], (List.replicate n (0 : Byte)).length ≤ 240
      ∧ (⟨0x12, 0, List.replicate n 0⟩ : Frame).bytes.length = n + 6)
    ∧ (⟨0x11, 0, be32 (0xFFFFFFFF : BitVec 32).toNat⟩ : Frame).payload.length = 4
    ∧ (⟨0x12, 0, be32 (0xFFFFFFFF : BitVec 32).toNat ++ [255]⟩ : Frame).payload.length = 5
    ∧ ¬ ((0x11 : Byte) = 0x11 ∧ ([] : List Byte).length = 4) ∧ ¬ ((0x11 : Byte) = 0x12 ∧ ([] : List Byte).length = 5)
    ∧ [0, 0] ≠ be16 (crc16 (⟨0x12, 0, []⟩ : Frame).covered).toNat ∧ State.reset.running = false
    ∧ readableHead 0x11 [0, 7, 1] = some .top ∧ running.running = true := by
  decide +kernel

/-- The request queue with one request, with three, and full; kinds at the ends of the range. -/
theorem test_witness_HostFramesQueued :
    let q (n : Nat) : List Frame := ({ State.reset with host := { requests := List.replicate n ⟨1, 0, []⟩ } } : State).host.requests
    (q 1).length = 1 ∧ (q 3).length = 3 ∧ 4 ≤ (q 4).length ∧ 0x40 ≤ (0x40 : Byte).toNat
    ∧ (0x3F : Byte) ≠ 0 ∧ (0x3F : Byte).toNat ≤ 0x3F ∧ unassigned 0x3F = true ∧ State.reset.host.requests = [] := by
  decide +kernel

/-- A reply on the link, with no request behind it, with one, and the OK reply to RESET. -/
theorem test_witness_FramesSent :
    (∀ n ∈ [1, 4],
      let s : State := { State.reset with host := { tx := .reply ⟨0x81, 0, [0]⟩, requests := List.replicate n ⟨1, 0, []⟩ } }
      s.host.tx = .reply ⟨0x81, 0, [0]⟩ ∧ (0x81 : Byte) ≠ 0x95 ∧ s.host.waiting = none
      ∧ s.host.requests = ⟨1, 0, []⟩ :: List.replicate (n - 1) ⟨1, 0, []⟩)
    ∧ ({ State.reset with host := { tx := .reply ⟨0x95, 0, [0]⟩ } } : State).host.tx = .reply ⟨0x95, 0, [0]⟩ := by
  decide +kernel

theorem test_witness_FramesSent_reports :
    ∀ w ∈ [none, some (⟨0x81, 0, [0]⟩ : Frame)],
      let s : State := { State.reset with
        host := { tx := .report, waiting := w }
        reports := { queue := [⟨0, 0, .stray .s2⟩] } }
      s.host.tx = .report ∧ s.reports.queue = [⟨0, 0, .stray .s2⟩] ∧ s.host.waiting = w := by
  decide +kernel

/-- A masked report; a PIECE report with 7 and with 8 free entries; another with none and with one. -/
theorem test_witness_ReportAdmission :
    let s (n : Nat) : State := { State.reset with reports := { queue := List.replicate n ⟨0, 0, .stray .s2⟩ } }
    let piece : Report := .piece {};
    (255 : Byte).getLsbD piece.kindIndex = true ∧ (0 : Byte).getLsbD piece.kindIndex = false
    ∧ piece.kindIndex = 0 ∧ (Report.stray .s2).kindIndex ≠ 0
    ∧ 48 - (s 41).reports.queue.length < 8 ∧ 8 ≤ 48 - (s 40).reports.queue.length
    ∧ 48 - (s 48).reports.queue.length = 0 ∧ 48 - (s 47).reports.queue.length ≠ 0
    ∧ (s 47).host.waiting = none := by
  decide +kernel

theorem test_witness_RefusedRequestsChangeNothing :
    (State.reset.answer ⟨0x01, 0, [0]⟩).2.head? ≠ some 0 := by decide +kernel

theorem test_witness_DefectsAndValue_point : ({ cls := 0, face := .top, start := 5, extent := 0, severity := 0 } : Defect).extent = 0 :=
  rfl

/-! The requests: a CONFIG line whose request queue is empty, and payloads at the ends of their ranges. -/

/-- SET_SECTION for section 1 at the low ends, 2 with the commit point as far as it may lie, 3 at the high ends, 4. -/
def sectionPayload (n : Byte) : List Byte :=
  [n, 1, 0xFF, 0x13, 0x88, 16, 0x10, 0, 0x4E, 0x20, 0, 201, 0x4D, 0x57, 0x4E, 0x1F, 0x4E, 0x20]
  ++ [23, 0, 20, 5, 0xFF, 0x4E, 0x20, 0x4E, 0x20, 3, 0xE8, 3, 0xE8, 3, 0xE8, 3, 0xE8, 201]

theorem test_witness_SetSection :
    State.reset.host.requests = [] ∧ State.reset.run.state = .config
    ∧ ∀ n ∈ ([1, 2, 3, 4] : List Byte), SectionPayload (sectionPayload n) := by
  refine ⟨rfl, rfl, fun n hn => ?_⟩
  fin_cases hn <;> constructor <;> decide +kernel

/-- The last line, with duty code 3; and the feed-hold line while a reason stands, in LEVEL mode. -/
theorem test_witness_OutputConfiguration :
    let p : List Byte := [23, 0, 3, 0xE8, 1, 1, 0xF4, 3]
    let s : State := { State.reset with run := { State.reset.run with settings := { feedLine := some 23 } } }
    p.length = 8 ∧ u8 p 0 = (23 : Fin 24).val ∧ s.pairOf 23 = none ∧ u8 p 1 ≤ 1 ∧ u8 p 4 ≤ 1 ∧ u8 p 7 ≤ 3 ∧ u8 p 1 = 0
      ∧ s.run.settings.feedLine = some 23 ∧ s.run.reasons.any = true ∧ s.host.requests = [] ∧ s.run.state = .config
      ∧ State.reset.run.settings.feedLine ≠ some 23 := by
  decide +kernel

/-- The last pair of the last lines, the one HELD and the other PULSING. -/
theorem test_witness_OutputConfiguration_pair :
    let p : List Byte := [5, 22, 23, 251]
    let s : State := (State.reset.modLine 22 (fun x => { x with state := .held })).modLine 23
      (fun x => { x with state := .pulsing 9 })
    p.length = 4 ∧ u8 p 0 = (5 : Fin 6).val ∧ u8 p 1 = (22 : Fin 24).val ∧ u8 p 2 = (23 : Fin 24).val
      ∧ s.pair 5 = none ∧ (22 : Fin 24) ≠ 23 ∧ s.pairOf 22 = none ∧ s.pairOf 23 = none
      ∧ (s.line 22).cfg.holdDuty = false ∧ (s.line 23).cfg.holdDuty = false
      ∧ (s.line 22).state ≠ .off ∧ (s.line 23).state ≠ .off := by
  decide +kernel

/-- SET_TRIM, SET_GRADE and SET_RULES at the high ends of their ranges. -/
theorem test_witness_BankRequests :
    State.reset.solver.commitPending = false ∧ State.reset.unsolved State.reset.solver.active.other = 0
    ∧ (let p : List Byte := [50, 100, 3, 0xE8, 11, 0xB9, 11, 0xB9, 11, 0xB9, 11, 0xB9, 11, 0xB9, 11, 0xB9, 11, 0xB9]
      p.length = 18 ∧ u8 p 0 ≤ 50 ∧ 5 ≤ u8 p 1 ∧ u8 p 1 ≤ 100 ∧ u8 p 0 ≤ u16 p 2 ∧ u16 p 2 ≤ 1000
      ∧ (∀ i : Fin 7, u16 p (4 + 2 * i.val) ≤ 3001) ∧ ∀ i : Fin 6, u16 p (4 + 2 * i.val) ≤ u16 p (6 + 2 * i.val))
    ∧ (let p : List Byte := [7, 1, 0x20, 0x7E, 0x41, 0x41, 0x41, 0x41, 0x41, 0x41, 11, 0xB8]
      p.length = 12 ∧ u8 p 0 = (7 : Fin 8).val ∧ u8 p 1 ≤ 1
      ∧ (∀ i : Fin 8, 0x20 ≤ u8 p (2 + i.val) ∧ u8 p (2 + i.val) ≤ 0x7E) ∧ 150 ≤ u16 p 10 ∧ u16 p 10 ≤ 3000)
    ∧ (let p : List Byte := [47, 1, 1, 7, 0xFF, 3, 15, 16]
      p.length = 2 + 6 * u8 p 1 ∧ u8 p 0 ≤ 47 ∧ u8 p 0 + u8 p 1 ≤ 48 ∧ 1 ≤ u8 p 1
      ∧ ∀ k, k < u8 p 1 → u8 p (2 + 6 * k) ≤ 1 ∧ u8 p (3 + 6 * k) ≤ 7 ∧ 1 ≤ u8 p (5 + 6 * k) ∧ u8 p (5 + 6 * k) ≤ 3
        ∧ u8 p (6 + 6 * k) ≤ 15 ∧ 1 ≤ u8 p (7 + 6 * k) ∧ u8 p (7 + 6 * k) ≤ 16) := by
  decide +kernel

theorem test_witness_BankRequests_prices :
    (7 :: List.replicate 16 (0xFF : Byte)).length = 17 ∧ u8 (7 :: List.replicate 16 0xFF) 0 = (7 : Fin 8).val
    ∧ 7 < u8 (8 :: List.replicate 16 0xFF) 0 := by decide +kernel

/-- CONFIG and HALT; RUN with and without a grade in the shadow bank, and with a commit pending. -/
theorem test_witness_BankRequests_commit :
    State.reset.run.state = .config ∧ running.run.state = .run
    ∧ ¬ (∃ g : Fin 8, ((running.table running.solver.active.other).grades[g]).defined = true)
    ∧ (let s : State := { running with solver := { bankB := graded } }
      s.solver.commitPending = false ∧ ∃ g : Fin 8, ((s.table s.solver.active.other).grades[g]).defined = true)
    ∧ ({ running with solver := { commitPending := true } } : State).solver.commitPending = true := by
  decide +kernel

/-- The same state, and a state that moves: a trend of 16 and a warn level of 1 mm/10 or none. -/
theorem test_witness_ProfileRequests :
    ∀ w ∈ ([0, 1] : List Byte),
      let d : List Byte := [0x4E, 0x20, 7, 0xD1, 0, w, 0, w]
      let p : List Byte := [1, 1, 8] ++ d ++ d ++ d ++ d
      let s : State := { State.reset with check := { trends := Vector.replicate 4 16 } }
      p.length = 35 ∧ u8 p 0 ≤ 1 ∧ u8 p 1 ≤ 1 ∧ (∀ i : Fin 4, u16 p (3 + 8 * i.val) ≤ 20000)
      ∧ ({ s.check with
            enable := decide (u8 p 0 = 1)
            hold := decide (u8 p 1 = 1)
            shift := clamp 1 8 (u8 p 2)
            dims := Vector.ofFn (fun i : Fin 4 =>
              { nominal := u16 p (3 + 8 * i.val)
                tolerance := min 2000 (u16 p (5 + 8 * i.val))
                warn := min 2000 (u16 p (7 + 8 * i.val))
                limit := max (min 2000 (u16 p (7 + 8 * i.val))) (min 2000 (u16 p (9 + 8 * i.val))) }) :
          ProfileCheck }.nextState = s.check.state ↔ w = 0) := by
  decide +kernel

/-- A flag code that is neither on nor off, and both that are. -/
theorem test_witness_FeedHoldReasons_request : (2 : Byte) ≠ 0 ∧ (2 : Byte) ≠ 1 ∧ State.reset.host.requests = [] := by decide +kernel

theorem test_witness_ProfileRequests_clear :
    State.reset.check.state = .normal
    ∧ ({ State.reset with check := { state := .limit } } : State).check.state ≠ .normal := by decide +kernel

/-- A pocket put in service and out of it, from EMPTY and from OFFLINE. -/
theorem test_witness_SetPocket :
    ∀ f ∈ ([0, 1] : List Byte),
      let p : List Byte := [11, f, 0, 7, 23, 0x4E, 0x20, 11, 0xB8, 0, 12, 9, 0xC4, 11, 3, 0xE9, 200, 51, 101, 1, 0xF4]
      u8 p 0 = (11 : Fin 12).val ∧ PocketPayload p
      ∧ ((State.reset.pocket 11).state = .empty ∨ (State.reset.pocket 11).state = .offline)
      ∧ ((State.reset.pocket 11).cfg.isBin = false ∨ State.reset.pendingKicks 11 = 0)
      ∧ ((State.reset.pocket 11).state = (if u8 p 1 = 1 then .empty else .offline) ↔ f = 0) := by
  intro f hf
  have pocket : ∀ g ∈ ([0, 1] : List Byte), PocketPayload
      [11, g, 0, 7, 23, 0x4E, 0x20, 11, 0xB8, 0, 12, 9, 0xC4, 11, 3, 0xE9, 200, 51, 101, 1, 0xF4] := fun g hg => by
    fin_cases hg <;> constructor <;> decide +kernel
  refine ⟨?_, pocket f hf, ?_⟩ <;> fin_cases hf <;> decide +kernel

/-- The feed-hold role goes from none or a free line to the last line, free or in a pair, stays there, and goes to none. -/
theorem test_witness_SetLine :
    let p (l : Byte) : List Byte := [11, 255, l, 17, 51]
    let s (l : Option (Fin 24)) : State := { State.reset with run := { settings := { feedLine := l } } }
    let q : Pair := { pairAt ⟨false, false⟩ 0 none none with second := 23 };
    (∀ l ∈ ([23, 255] : List Byte), (p l).length = 5 ∧ (u8 (p l) 0 ≤ 11 ∨ u8 (p l) 0 = 255)
      ∧ (u8 (p l) 1 ≤ 11 ∨ u8 (p l) 1 = 255) ∧ (u8 (p l) 2 ≤ 23 ∨ u8 (p l) 2 = 255))
    ∧ optIdx 24 (u8 (p 23) 2) = some 23 ∧ optIdx 24 (u8 (p 255) 2) = none
    ∧ (∀ l ∈ [none, some 0, some 23], (s l).running = false ∧ (s l).run.settings.feedLine = l)
    ∧ (s none).run.reasons.any = true ∧ (s none).pairOf 23 = none ∧ ((s none).setPair 0 (some q)).pairOf 23 = some 0 := by
  decide +kernel

theorem test_witness_SetLabelAndReports :
    let p : List Byte := List.replicate 6 0x20 ++ List.replicate 6 0x7E ++ [11, 0xB8, 3, 3, 0xEA, 0x61, 0, 99, 1]
      ++ [5, 0xF5, 0xE0, 0xFF]
    p.length = 25 ∧ (∀ i, i < 12 → 0x20 ≤ u8 p i ∧ u8 p i ≤ 0x7E)
      ∧ (u16 p 12 = 0 ∨ (300 ≤ u16 p 12 ∧ u16 p 12 ≤ 3000)) ∧ 1 ≤ u8 p 14 ∧ u8 p 14 ≤ 3 ∧ u8 p 15 ≤ 3 ∧ u8 p 20 ≤ 1
      ∧ (u8 p 20 = 1 → 1 ≤ u32 p 21 ∧ u32 p 21 ≤ 99999999)
      ∧ (channel .paused (entry .queued 1) id).labels.state ≠ .idle := by
  decide +kernel

theorem test_witness_SetLabelAndReports_mask :
    ({ State.reset with reports := { mask := 0x80 } } : State).reports.mask.getLsbD
      (Report.run .run .drain .stopLine 0).kindIndex = true := by decide +kernel

/-- A set of reasons that stays empty or not, one that changes with the feed-hold line free, and with it in a pair. -/
theorem test_witness_FeedHoldReasons :
    let f : HoldReasons → HoldReasons := fun r => { r with notRunning := false }
    let s : State := { State.reset with run := { settings := { feedLine := some 3 } } }
    let t : State := s.setPair 0 (some (pairAt ⟨false, false⟩ 0 none none))
    (f running.run.reasons).any ≠ running.run.reasons.any ∧ running.run.settings.feedLine = none
      ∧ (f s.run.reasons).any ≠ s.run.reasons.any ∧ s.run.settings.feedLine = some 3 ∧ s.pairOf 3 = none
      ∧ t.pairOf 3 = some 0 := by
  decide +kernel

/-- A configuration that is complete, in CONFIG, RUN and DRAIN; and a line that is drained, and one that is not. -/
theorem test_witness_StartAndStopLine :
    let s : State := { State.reset with
      solver := { bankA := graded }
      secs := Vector.replicate 4 { cfg := { distance := 100, commit := 5, sort := 5 } }
      cuts := { sawPos := 6, sawLine := some 0 }
      run := { settings := { regrade := some 0, overflow := some 1 } }
      pockets := Vector.replicate 12 { cfg := { position := 6 }, state := .empty } }
    ((∃ g : Fin 8, ((s.table s.solver.active).grades[g]).defined = true)
      ∧ (∀ x : Sec, (s.sec x).cfg.distance ≠ 0) ∧ s.cuts.sawLine.isSome = true
      ∧ (s.sec .s2).cfg.commit < s.cuts.sawPos ∧ s.run.settings.regrade.isSome = true
      ∧ s.run.settings.overflow.isSome = true
      ∧ (∀ p : Fin 12, (s.pocket p).state ≠ .offline → (s.sec .s4).cfg.sort < (s.pocket p).cfg.position))
    ∧ s.run.state = .config ∧ running.run.state = .run ∧ running.drained = true ∧ (oneStrip strip).drained = false := by
  refine ⟨⟨by decide +kernel, fun x => ?_, by decide +kernel⟩, by decide +kernel⟩
  cases x <;> decide +kernel

/-- Lines outside HALT and in it. -/
theorem test_witness_HaltAndClearHalt :
    (oneStrip strip).run.state ≠ .halt ∧ (oneStrip strip).pool.Partitioned
    ∧ ({ State.reset with run := { state := .halt } } : State).run.state = .halt :=
  ⟨by decide +kernel, test_partitioned .s1 _ rfl, by decide +kernel⟩

/-- The last line OFF, in PULSE mode and in LEVEL mode, and HELD; and the last pair. -/
theorem test_witness_TestOutput :
    State.reset.pairOf 23 = none ∧ State.reset.run.settings.feedLine ≠ some 23
    ∧ (State.reset.line 23).state ≠ .held ∧ (State.reset.line 23).cfg.pulse = false
    ∧ ((State.reset.modLine 23 (fun x => { x with state := .held })).line 23).state = .held
    ∧ ((State.reset.modLine 23 (fun x => { x with cfg := { x.cfg with pulse := true } })).line 23).cfg.pulse = true
    ∧ (let q := pairAt ⟨false, false⟩ 0 none none
      (State.reset.setPair 5 (some q)).pair 5 = some q) := by
  decide +kernel

/-- A pocket in each state that the requests ask for. -/
theorem test_witness_PocketRequests :
    let s (k : Pocket) : State := State.reset.modPocket 11 (fun _ => k)
    let b : Bundle := { grade := 0, reservations := 1 }
    ((s { state := .filling, bundle := some b }).pocket 11).bundle = some b ∧ b.reservations ≠ 0
    ∧ ((s { state := .filling }).pocket 11).state ≠ .offline ∧ ((s { state := .filling }).pocket 11).state ≠ .stalled
    ∧ ((s { state := .stalled, lost := true }).pocket 11).lost = true
    ∧ ((s { state := .stalled, prior := some .filling }).pocket 11).prior = some .filling
    ∧ (let x := (s { state := .stalled, prior := some .closing, bundle := some b }).pocket 11
      x.state = .stalled ∧ x.lost = false ∧ x.prior = some .closing)
    ∧ ((s { state := .full, cfg := { isBin := true } }).pocket 11).cfg.isBin = true
    ∧ (∀ st ∈ [LabelStatus.printed, .skipped, .queued, .failed],
      let e := entry st 0
      let t := { s { state := .closed, bundle := some { b with label := .labelled 9 } } with labels := { queue := [e] } }
      (t.pocket 11).state = .closed ∧ t.labelEntry e.serial = some e ∧ t.labels.faultEntry ≠ some e.serial) := by
  decide +kernel

/-- The channel in each state, and an entry in each status, with the highest serial that a request can name. -/
theorem test_witness_LabelRequests :
    (∀ c ∈ [ChanState.idle, .stopped, .sending, .awaitAck, .paused], (channel c (entry .sending 1) id).labels.state = c
      ∧ (channel c (entry .sending 1) id).firstQueued = none)
    ∧ (let s := { channel .fault (entry .failed 1) (fun c => { c with faultEntry := some 9 }) with
        pins := { State.reset.pins with stop := true } }
      s.labels.state = .fault ∧ s.labels.faultEntry = some 9 ∧ s.pins.stop = true
      ∧ s.labelEntry 9 = some (entry .failed 1))
    ∧ (∀ st ∈ [LabelStatus.queued, .printed, .failed, .skipped],
      let e := { entry st 1 with serial := 4294967295 }
      let s := channel .paused e id
      e.serial < 4294967296 ∧ s.labelEntry e.serial = some e ∧ s.labels.faultEntry ≠ some e.serial
      ∧ s.labels.state ≠ .idle) := by
  decide +kernel

/-- The first code that names no list, the last that names one, and the strip of a query. -/
theorem test_witness_Queries :
    4 < (5 : Byte).toNat ∧ (4 : Byte).toNat ≤ 4 ∧ (∃ i : Fin 64, i ∈ (oneStrip strip).pool.free)
    ∧ (oneStrip strip).findTag (7 : Fin 65536).val = some 5 := by decide +kernel

/-! The gauge, the handoffs, the commit points and the kick. -/

/-- One position reached: the overlength position. -/
theorem test_witness_CounterSteps_due :
    let s : State := { running with gauge := .measuring 0 1 }
    let t := (s.togglePhase .s1 .a).setSec .s1 { s.sec .s1 with acc := 0, counter := 1, highMark := 1 }
    t.due (some .s1) = [.overlength 0] ∧ (t.act (.overlength 0)).due (some .s1) = [] := by
  decide +kernel

/-- Lengths of 19, 20, 149, 150 mm and above 3000 mm, with records at the threshold and with none. -/
theorem test_witness_GaugeMeasures :
    running.solver.commitPending = false
    ∧ ({ running with solver := { running.solver with commitPending := true } } : State).solver.commitPending = true
    ∧ (∀ n ∈ [19, 20, 149, 150, 3200], ((BitVec.ofNat 24 n - 0).toNat < 8388608)
      ∧ (running.sec .s1).cfg.toMm (BitVec.ofNat 24 n - 0).toNat = n)
    ∧ (∀ n ∈ [7, 8], ∀ bad : Bool, let s : State := { running with
        gauge := .measuring 0 3001
        pool := { running.pool with free := [0, 1, 2, 3, 4, 5, 6] }
        scan := { running.scan with starts := List.replicate n ⟨1, 150⟩, top := { errors := 40, degraded := bad } } }
      s.gauge = .measuring 0 3001 ∧ s.pool.free = 0 :: [1, 2, 3, 4, 5, 6]
      ∧ s.run.settings.threshold ≤ [1, 2, 3, 4, 5, 6].length ∧ s.scan.top.degraded = bad
      ∧ (8 ≤ s.scan.starts.length ↔ n = 8))
    ∧ ({ running with pool := { running.pool with free := [] } } : State).pool.free = [] := by
  decide +kernel

/-- An empty section; a head just below the window, at its first count, at its last, and just above it, where its
deadline is reached; and a head behind its lead count after a reversal, where it is not. -/
theorem test_witness_HandoffEdges :
    running.list .s1 = []
    ∧ ∀ n ∈ [99, 1049, 1050, 1150, 1151],
      let s := unit (oneStrip strip) (fun u => { u with counter := BitVec.ofNat 24 n, cfg := { u.cfg with distance := 1000 } })
      let travel := ((s.sec .s1).counter - (s.record 5).lead).toNat
      s.list .s1 = 5 :: [] ∧ s.live 5 = true
      ∧ (travel < (s.sec .s1).cfg.toCounts (1000 - 50) ↔ n = 1049)
      ∧ (travel ≤ (s.sec .s1).cfg.toCounts (1000 + 50) ↔ n ≠ 1151 ∧ n ≠ 99)
      ∧ (s.isReached .s1 (addCounts (s.record 5).lead ((s.sec .s1).cfg.toCounts (1000 + 50) + 1)) = true ↔ n = 1151) := by
  decide +kernel

theorem test_witness_HandoffEdges_lost : (oneStrip strip).pool.Partitioned := test_partitioned .s1 _ rfl

/-- A blank record; a live one, with no solve in flight, with one and nothing behind it, and with one and a strip behind it;
with and without a placement. -/
theorem test_witness_RecordsReleased :
    let other : Record := { strip with tag := 8, solve := .queued }
    let s (queue : List (Fin 64)) : State := { (oneStrip { strip with solve := .solving }).setRecord 6 other with
      solver := { running.solver with queue := queue, flight := some ⟨5, Vector.replicate 8 none⟩ } }
    running.live 5 = false ∧ (oneStrip strip).live 5 = true ∧ (oneStrip strip).inFlight 5 = false
    ∧ (∀ q ∈ [[], [6]], (s q).live 5 = true ∧ (s q).inFlight 5 = true ∧ (s q).running = true
      ∧ (s q).solver.queue.filter (fun j => decide (j ≠ 5)) = q)
    ∧ (s [6]).live 6 = true ∧ ((oneStrip strip).record 5).placement = none
    ∧ ((oneStrip { strip with placement := some ⟨3, 0, 1000⟩ }).record 5).placement = some ⟨3, 0, 1000⟩ := by
  decide +kernel

/-- Each kind of position reached, one count past none of them and at each. -/
theorem test_witness_DuePositions :
    let s : State := { running with
      pool := poolOf .s4 { strip with loc := .s4, lead := 0 }
      gauge := .measuring 0 0
      cuts := { running.cuts with watch := [⟨5, 0⟩] } }
    s.due none = [.overlength 0, .sortCommit 5, .runOff 5]
    ∧ (s.modCuts (fun c => { c with watch := [] })).due none = [.overlength 0, .sortCommit 5]
    ∧ ((s.modCuts (fun c => { c with watch := [] })).modSec .s4 (fun u => { u with counter := 1051 })).due none
      = [.overlength 0, .deadline .s4 5, .sortCommit 5]
    ∧ (unit running (fun u => { u with pending := some ⟨true, 0⟩ })).due (some .s1) = [.eye .s1 ⟨true, 0⟩]
    ∧ ((unit (oneStrip strip) (fun u => { u with counter := 151 })).due none) = [.deadline .s1 5]
    ∧ ((unit (oneStrip strip) (fun u => { u with counter := 150 })).due none) = []
    ∧ ({ running with pool := poolOf .s2 { strip with loc := .s2, lead := 0 } } : State).due none = [.commit 5]
    ∧ (unit running (fun u => { u with schedule := [⟨0, .linePulse 0, 6, none⟩] })).due none
      = [.fire .s1 ⟨0, .linePulse 0, 6, none⟩]
    ∧ running.run.settings.threshold ≤ 63 ∧ running.pool.free.length = 64 := by
  decide +kernel

/-- A tail edge with nothing awaited, with a strip of another tag, and with the strip awaited: its length at the end of the
tolerance, and one millimetre beyond it. -/
theorem test_witness_TailEdges :
    let s (tag n : Nat) : State := ({ running with pool := poolOf .s4 { strip with loc := .s4 } } : State).modSec .s4
      (fun u => { u with awaiting := some ⟨5, tag, BitVec.ofNat 24 n⟩ })
    (running.sec .s4).awaiting = none ∧ (s 8 0).live 5 = true ∧ ((s 8 0).record 5).tag ≠ 8
    ∧ (∀ n ∈ [989, 990, 1010, 1011], ((s 7 0).record 5).tag = 7
      ∧ ((s 7 0).sec .s4).cfg.toMm (BitVec.ofNat 24 n - 0).toNat = n
      ∧ (n ≤ ((s 7 0).record 5).len + (s 7 0).run.settings.tolerance
        ∧ ((s 7 0).record 5).len ≤ n + (s 7 0).run.settings.tolerance ↔ n ≠ 989 ∧ n ≠ 1011)) := by
  decide +kernel

/-- A solved strip with two saw cuts and two free schedule entries; a QUEUED strip; a strip whose scan is open. -/
theorem test_witness_CommitEvents :
    let v : Solution := ⟨1, 1, 998, some 0, 0, false, 0⟩
    let other : Entry := ⟨500, .linePulse 0, 6, none⟩
    let at' (r : Record) : State := { running with
      pool := poolOf .s2 r
      cuts := { running.cuts with sawLine := some 2, sawPos := 600 }
      secs := Vector.replicate 4 { schedule := List.replicate 30 other } }
    let s := at' { strip with loc := .s2, solve := .solved, disp := .pocket 0, solution := some v }
    (s.live 5 = true ∧ ((s.record 5).placement = none ∨ (s.record 5).solve = .solved) ∧ (s.record 5).solve = .solved
      ∧ (s.record 5).disp = .pocket 0 ∧ (s.record 5).solution = some v ∧ s.cuts.sawLine = some 2 ∧ v.t1 ≠ 0 ∧ v.t2 ≠ 0
      ∧ (s.sec .s2).schedule.length ≤ 30 ∧ (∀ e ∈ (s.sec .s2).schedule, e.index ≠ 5)
      ∧ s.isReached .s2 (addCounts (s.record 5).lead ((s.sec .s2).cfg.toCounts (s.cuts.sawPos + v.t1))) = false
      ∧ s.isReached .s2 (addCounts (s.record 5).lead
        ((s.sec .s2).cfg.toCounts (s.cuts.sawPos + (s.record 5).len - v.t2))) = false)
    ∧ ((at' { strip with loc := .s2, solve := .queued }).record 5).solve = .queued
    ∧ (at' { strip with loc := .s2, solve := .queued }).inFlight 5 = false
    ∧ ((at' { strip with loc := .s2 }).record 5).solve = .none
    ∧ ((at' { strip with loc := .s2 }).record 5).placement = none := by
  decide +kernel

/-- A saw cut that fires with the saw READY and RECOVERING, on a free line and on a line of a pair. -/
theorem test_witness_SawCuts :
    let e : Entry := ⟨0, .linePulse 3, 5, none⟩
    let s (saw : Option Nat) : State := { oneStrip strip with out := { running.out with saw := saw } };
    (s none).pool.Partitioned ∧ (s none).live e.index = true ∧ e.action = .linePulse 3
    ∧ (s none).pairOf 3 = none ∧ (s none).out.saw = none ∧ (s (some 9)).out.saw.isSome = true
    ∧ ((s none).setPair 0 (some (pairAt ⟨false, false⟩ 0 none none))).pairOf 3 = some 0 :=
  ⟨test_partitioned .s1 _ rfl, by decide +kernel⟩

/-- A strip for the regrade bin; one for a pocket with no head in use, with both, with the tongue in conflict by one count and
not in conflict, with room for four entries and for three, and with its advance reached at once. -/
theorem test_witness_EndMatching :
    let q : Option Pair := some (pairAt ⟨false, false⟩ 0 none none)
    let placed : Record := { strip with disp := .pocket 3 }
    let s (n : Nat) (last : Option Pos) (hT : Nat) : State := (((oneStrip placed).setPair 0 q).setPair 1 q).setSec .s3
      { running.sec .s3 with schedule := List.replicate n ⟨500, .linePulse 0, 6, none⟩ } |>.modCuts (fun c => { c with
        tonguePair := some 0
        groovePair := some 1
        hT := hT
        aT := 1
        lastTongue := last
        clearance := 10 });
    (s 0 none 1).pool.Partitioned ∧ (s 0 none 1).live 5 = true ∧ ((s 0 none 1).record 5).disp = .pocket 3
    ∧ ((s 28 none 2).matchEntries 5).length = 4 ∧ ((oneStrip placed).matchEntries 5) = []
    ∧ (s 28 none 2).scheduleRoom .s3 4 = true ∧ (s 29 none 2).scheduleRoom .s3 4 = false
    ∧ (∀ n ∈ [91, 92], (s 0 (some (BitVec.ofNat 24 n)) 2).matchConflict 5 = true ↔ n = 92)
    ∧ (s 0 none 1).isReached .s3 (addCounts ((s 0 none 1).record 5).lead 0) = false
    ∧ ((s 0 none 1).modSec .s3 (fun u => { u with counter := 100 })).isReached .s3
      (addCounts ((s 0 none 1).record 5).lead 0) = true
    ∧ ((s 0 none 1).modSec .s3 (fun u => { u with counter := 100 })).isReached .s3
      (addCounts ((s 0 none 1).record 5).lead 1) = false
    ∧ (let e : Entry := ⟨0, .pairTarget 1 ⟨false, true⟩, 5, none⟩
      e.index = 5 ∧ e.action = .pairTarget 1 ⟨false, true⟩) :=
  ⟨test_partitioned .s1 _ rfl, by decide +kernel⟩

/-- The last free schedule entry; a pocket, a bin with one place left, and a bin with none; a strip for the run-off. -/
theorem test_witness_SortCommits :
    let other : Entry := ⟨500, .linePulse 0, 6, none⟩
    let at' (r : Record) (k : Pocket) : State := { running with
      pool := poolOf .s4 { r with loc := .s4 }
      pockets := running.pockets.set 3 k
      secs := Vector.replicate 4 { schedule := List.replicate 31 other } }
    let kicks (n : Nat) : Pocket := { cfg := { isBin := true, kicker := some 2, capacity := 1 }, state := .filling, count := n }
    let placed := at' { strip with disp := .pocket 3, placement := some ⟨3, 0, 1000⟩ }
      { cfg := { kicker := some 2 }, state := .closing }
    let binned (n : Nat) := at' { strip with disp := .bin (some 3) .noFit } (kicks n)
    (placed.live 5 = true ∧ (placed.sec .s4).schedule.length ≤ 31 ∧ (∀ e ∈ (placed.sec .s4).schedule, e.index ≠ 5)
      ∧ (placed.record 5).placement = some ⟨3, 0, 1000⟩ ∧ (placed.pocket 3).state ∈ [PocketState.filling, .closing]
      ∧ (placed.pocket 3).cfg.kicker = some 2 ∧ placed.isReached .s4 (addCounts 100 0) = false)
    ∧ ((binned 0).pocket 3).count + (binned 0).pendingKicks 3 < ((binned 0).pocket 3).cfg.capacity
    ∧ ((binned 0).pocket 3).state ∈ [PocketState.empty, .filling] ∧ ((binned 0).pocket 3).cfg.isBin = true
    ∧ ((binned 1).pocket 3).cfg.capacity ≤ ((binned 1).pocket 3).count + (binned 1).pendingKicks 3
    ∧ ((binned 1).record 5).placement = none
    ∧ ((at' { strip with disp := .runoff .profile } {}).record 5).disp = .runoff .profile := by
  decide +kernel

/-- A strip placed in a STALLED pocket, with its alternate EMPTY, FILLING, and OFFLINE. -/
theorem test_witness_RePlacement :
    let sol : Solution := ⟨0, 0, 1000, some 0, 0, false, 0⟩
    let r : Record := { strip with loc := .s4, disp := .pocket 3, placement := some ⟨3, 0, 1000⟩, solution := some sol }
    let bundle : Bundle := { grade := 0, reservations := 1 }
    let s (st : PocketState) : State := { running with
      pool := poolOf .s4 r
      pockets := (Vector.replicate 12 { cfg := { rowLen := 2500 }, state := st, bundle := none }).set 3
        { cfg := { alternate := some 4 }, state := .stalled, bundle := some bundle } }
    ∀ st ∈ [PocketState.empty, .filling, .offline], (s st).live 5 = true ∧ ((s st).record 5).disp = .pocket 3
      ∧ ((s st).record 5).placement = some ⟨3, 0, 1000⟩ ∧ ((s st).pocket 3).state ∉ [PocketState.filling, .closing]
      ∧ r.grade = some 0 ∧ ((s st).placeAtSort 3 0 r.pieceLen = some (4, 0) ↔ st ≠ .offline)
      ∧ ((s st).placeAtSort 3 0 r.pieceLen = none ↔ st = .offline) := by
  decide +kernel

/-- A primary pocket that takes a piece, and one that does not, with its alternate; an EMPTY pocket, and a FILLING one that a
reservation does not fill, fills by its rows, and fills by its pieces. -/
theorem test_witness_Reservation :
    let at' (st : PocketState) (alternate : Option (Fin 12)) : Pocket :=
      { cfg := { rowLen := 2500, alternate := alternate }, state := st }
    let s (k : Pocket) : State := { oneStrip strip with pockets := (Vector.replicate 12 (at' .empty none)).set 0 k }
    let filling (gap limit : Nat) : Pocket := { at' .filling none with
      cfg := { rowLen := 2500, closeGap := gap, maxPieces := limit }
      bundle := some { grade := 0 } };
    (s (at' .empty none)).live 5 = true ∧ (s (at' .empty none)).primary 0 = some 0
    ∧ (s (at' .empty none)).primary 1 = none
    ∧ ((s (at' .empty none)).pocket 0).fit 2500 = some 0
    ∧ (s (at' .stalled (some 4))).primary 0 = some 0 ∧ ((s (at' .stalled (some 4))).pocket 4).fit 2500 = some 0
    ∧ (s (at' .stalled (some 4))).placeAtCompletion 0 2500 = some (4, 0)
    ∧ (∀ g ∈ [1500, 1501], ∀ n ∈ [1, 2],
      (((s (filling g n)).reserve 5 0 0 1000).pocket 0).state
        = if g = 1501 ∨ n = 1 then PocketState.closing else .filling) := by
  decide +kernel

/-- A kicker line free, HELD, and of a pair; a piece placed in a FILLING bundle; and one for a bin, the last that it holds
and not. -/
theorem test_witness_PiecesKicked :
    let s : State := { running with
      pool := poolOf .s4 { strip with loc := .s4, disp := .pocket 3, placement := some ⟨3, 0, 1000⟩ }
      pockets := running.pockets.set 3 { state := .filling, bundle := some { grade := 0, reservations := 1 } } }
    let t (st : PocketState) : State := { running with
      pool := poolOf .s4 { strip with loc := .s4, disp := .bin (some 3) .noFit }
      pockets := running.pockets.set 3 { cfg := { isBin := true, capacity := 1 }, state := st } }
    s.pairOf 2 = none ∧ (s.line 2).state ≠ .held
      ∧ ((s.modLine 2 (fun x => { x with state := .held })).line 2).state = .held
      ∧ (s.setPair 5 (some { pairAt ⟨false, false⟩ 0 none none with first := 2 })).pairOf 2 = some 5
      ∧ s.live 5 = true ∧ (s.record 5).disp = .pocket 3 ∧ (s.record 5).placement = some ⟨3, 0, 1000⟩
      ∧ (s.pocket 3).state = .filling ∧ (s.pocket 3).bundle = some { grade := 0, reservations := 1 }
      ∧ (∀ st ∈ [PocketState.empty, .filling], (t st).live 5 = true ∧ ((t st).record 5).disp = .bin (some 3) .noFit
        ∧ ((t st).record 5).placement = none ∧ ((t st).pocket 3).state ∈ [PocketState.empty, .filling]) := by
  decide +kernel

end Sys2Proof.Tests
end

section
/-! The encoder decoder and the divider (R22, R23): the levels after a phase changed, the direction read from them, and
the two steps that the divider holds. -/

namespace Sys2Proof.Machine

namespace State

/-! ### What a change of a phase leaves, and what it changes -/

@[simp] theorem togglePhase_sec (x y : Sec) (phase : Phase) (s : State) :
    (s.togglePhase x phase).sec y = s.sec y := by
  simp [sec]

@[simp] theorem togglePhase_a_phaseA (x : Sec) (s : State) :
    (s.togglePhase x .a).pins.phaseA = s.pins.phaseA.set x.idx (!s.pins.phaseA[x.idx]) := rfl

@[simp] theorem togglePhase_a_phaseB (x : Sec) (s : State) :
    (s.togglePhase x .a).pins.phaseB = s.pins.phaseB := rfl

@[simp] theorem togglePhase_b_phaseA (x : Sec) (s : State) :
    (s.togglePhase x .b).pins.phaseA = s.pins.phaseA := rfl

@[simp] theorem togglePhase_b_phaseB (x : Sec) (s : State) :
    (s.togglePhase x .b).pins.phaseB = s.pins.phaseB.set x.idx (!s.pins.phaseB[x.idx]) := rfl

/-! ### The direction, read from the levels before the change (R22) -/

theorem countsForward_togglePhase_a (x : Sec) (s : State) :
    (s.togglePhase x .a).countsForward x .a
      = (((!s.pins.phaseA[x.idx]) != s.pins.phaseB[x.idx]) != (s.sec x).cfg.inverted) := by
  simp [countsForward]

theorem countsForward_togglePhase_b (x : Sec) (s : State) :
    (s.togglePhase x .b).countsForward x .b
      = ((s.pins.phaseA[x.idx] == (!s.pins.phaseB[x.idx])) != (s.sec x).cfg.inverted) := by
  simp [countsForward, bne]

/-! ### The raw counts that the divider holds (R23) -/

theorem rawStep_forward_of_lt {x : Sec} {s : State} (h : (s.sec x).acc < (s.sec x).cfg.divider) :
    s.rawStep x true = s.setSec x { s.sec x with acc := (s.sec x).acc + 1 } := by
  simp [rawStep, modSec, Nat.not_le.mpr h]

theorem rawStep_backward_of_pos {x : Sec} {s : State} (h : 0 < (s.sec x).acc) :
    s.rawStep x false = s.setSec x { s.sec x with acc := (s.sec x).acc - 1 } := by
  simp [rawStep, modSec, h.ne']

end State

/-! ### The two rows -/

theorem exec_rawCount (x : Sec) (phase : Phase) (s : State) :
    exec (.rawCount x phase) s
      = .next ((s.togglePhase x phase).rawStep x ((s.togglePhase x phase).countsForward x phase)) := rfl

/-- The change of B finds the levels of B that the change of A left, and these are the old ones. -/
theorem exec_bothPhasesChange (x : Sec) (s : State) :
    exec (.bothPhasesChange x) s = .next { s with pins := { s.pins with
      phaseA := s.pins.phaseA.set x.idx (!s.pins.phaseA[x.idx])
      phaseB := s.pins.phaseB.set x.idx (!s.pins.phaseB[x.idx]) } } := rfl

/-- Settles O9: the direction is read from the changed levels, and the divider steps once in it. -/
theorem rawCounts : Obligations.RawCounts := by
  refine ⟨fun s x phase forward hforward => ?_, fun s x => exec_bothPhasesChange x s⟩
  have hdir : (s.togglePhase x phase).countsForward x phase = forward := by
    cases phase with
    | a => exact (s.countsForward_togglePhase_a x).trans hforward.symm
    | b => exact (s.countsForward_togglePhase_b x).trans hforward.symm
  have hsec : (s.togglePhase x phase).sec x = s.sec x := State.togglePhase_sec x x phase s
  rw [exec_rawCount, hdir]
  refine ⟨rfl, ?held_forward, ?held_backward⟩
  case held_forward =>
    rintro rfl hlt
    rw [State.rawStep_forward_of_lt (by rwa [hsec]), hsec]
  case held_backward =>
    rintro rfl hpos
    rw [State.rawStep_backward_of_pos (by rwa [hsec]), hsec]

end Sys2Proof.Machine
end

section
/-! Grading and the worth of a candidate (R82 to R85): which defects lie in its piece, the band and the value of a
length, the accepting rule of a defect, the grade, and the fill bonus. -/

namespace Sys2Proof.Machine

/-! ### Defects in a piece (R82) -/

theorem Defect.inPiece_iff (d : Defect) (len t1 t2 : Nat) :
    d.inPiece len t1 t2 = true ↔ d.start < len - t2 ∧ t1 < d.start + d.extent := by
  simp [inPiece, Nat.lt_sub_iff_add_lt]

/-! ### Band and value (R84) -/

theorem toList_eq_map_finRange {α : Type} {n : Nat} (v : Vector α n) :
    v.toList = (List.finRange n).map (fun i => v[i]) :=
  List.ext_getElem (by simp) (by simp)

theorem bandOf_eq_length_filter (bands : Vector Nat 7) (len : Nat) :
    bandOf bands len = ((List.finRange 7).filter (fun i => decide (¬ len < bands[i]))).length := by
  rw [bandOf, toList_eq_map_finRange, List.countP_map, List.countP_eq_length_filter]
  simp only [Function.comp_def, Nat.not_lt]

theorem bandOf_le_seven (bands : Vector Nat 7) (len : Nat) : bandOf bands len ≤ 7 :=
  List.countP_le_length.trans_eq bands.length_toList

theorem val_bandIdx (bands : Vector Nat 7) (len : Nat) : (bandIdx bands len).val = bandOf bands len :=
  Nat.mod_eq_of_lt (Nat.lt_succ_of_le (bandOf_le_seven bands len))

theorem BankTable.value_le {t : BankTable} {g : Fin 8} {len : Nat}
    (hprice : (t.prices[g])[bandIdx t.bands len] ≤ 65535) (hlen : len ≤ 3000) : t.value g len ≤ 196605 :=
  calc t.value g len
    _ ≤ 65535 * 3000 / 1000 := Nat.div_le_div_right (Nat.mul_le_mul hprice hlen)
    _ = 196605 := rfl

theorem BankTable.value_greatest {t : BankTable} {g : Fin 8} (hprice : (t.prices[g])[bandIdx t.bands 3000] = 65535) :
    t.value g 3000 = 196605 := by
  rw [value, hprice]

/-! ### The accepting rule of a defect (R83) -/

theorem FaceSet.has_iff (faces : FaceSet) (face : Face) :
    faces.has face = true ↔
      faces = .both ∨ (faces = .top ∧ face = .top) ∨ (faces = .bottom ∧ face = .bottom) := by
  cases faces <;> cases face <;> decide

/-- Two classes agree under a mask when they agree on each of its bits. -/
theorem and_mask_eq_iff {w : Nat} (x y mask : BitVec w) :
    x &&& mask = y &&& mask ↔ ∀ bit, mask.getLsbD bit = true → x.getLsbD bit = y.getLsbD bit := by
  constructor
  · intro h bit hbit
    simpa [hbit] using congrArg (·.getLsbD bit) h
  · intro h
    refine BitVec.eq_of_getLsbD_eq fun bit _ => ?_
    cases hbit : mask.getLsbD bit with
    | false => simp [hbit]
    | true => simp [hbit, h bit hbit]

theorem GradeRule.matches_iff (r : GradeRule) (g : Fin 8) (d : Defect) :
    r.matches g d = true ↔ r.used = true ∧ r.grade = g
      ∧ (∀ bit, r.mask.getLsbD bit = true → d.cls.getLsbD bit = r.cls.getLsbD bit)
      ∧ (r.faces = .both ∨ (r.faces = .top ∧ d.face = .top) ∨ (r.faces = .bottom ∧ d.face = .bottom))
      ∧ d.severity.toNat ≤ r.maxSeverity.toNat := by
  simp only [GradeRule.matches, Bool.and_eq_true, decide_eq_true_eq, and_mask_eq_iff, FaceSet.has_iff, and_assoc]

theorem BankTable.acceptor_eq_some_iff (t : BankTable) (g : Fin 8) (d : Defect) (k : Fin 48) :
    t.acceptor g d = some k ↔
      t.rules[k].matches g d = true ∧ ∀ j, j < k → ¬ t.rules[j].matches g d = true := by
  simp only [acceptor, ← Fin.find?_eq_find?_finRange, Fin.find?_eq_some_iff, Bool.not_eq_true]

theorem BankTable.acceptor_eq_none_iff (t : BankTable) (g : Fin 8) (d : Defect) :
    t.acceptor g d = none ↔ ∀ j : Fin 48, ¬ t.rules[j].matches g d = true := by
  simp only [acceptor, ← Fin.find?_eq_find?_finRange, Fin.find?_eq_none_iff, Bool.not_eq_true]

/-! ### The grade (R83) -/

theorem BankTable.admits_iff (t : BankTable) (g : Fin 8) (len : Nat) (ds : List Defect) :
    t.admits g len ds = true ↔ t.grades[g].defined = true ∧ t.grades[g].lmin ≤ len
      ∧ (∀ d ∈ ds, t.acceptor g d ≠ none)
      ∧ ∀ k : Fin 48, (ds.filter (fun d => decide (t.acceptor g d = some k))).length ≤ t.rules[k].maxCount := by
  simp only [admits, Bool.and_eq_true, decide_eq_true_eq, List.all_map, List.all_eq_true, List.mem_finRange,
    forall_true_left, Function.comp_def, Option.isSome_iff_ne_none, List.countP_map, ← List.countP_eq_length_filter,
    and_assoc]

/-- Without defects no rule counts anything. -/
theorem BankTable.admits_nil_iff (t : BankTable) (g : Fin 8) (len : Nat) :
    t.admits g len [] = true ↔ t.grades[g].defined = true ∧ t.grades[g].lmin ≤ len := by
  simp [admits_iff]

theorem BankTable.gradeOf_eq_some_iff (t : BankTable) (g : Fin 8) (len : Nat) (ds : List Defect) :
    t.gradeOf len ds = some g ↔ t.admits g len ds = true ∧ ∀ h, h < g → t.admits h len ds = false := by
  rw [gradeOf, ← Fin.find?_eq_find?_finRange, Fin.find?_eq_some_iff]

theorem BankTable.gradeOf_eq_none_iff (t : BankTable) (len : Nat) (ds : List Defect) :
    t.gradeOf len ds = none ↔ ∀ h, t.admits h len ds = false := by
  rw [gradeOf, ← Fin.find?_eq_find?_finRange, Fin.find?_eq_none_iff]

/-! ### What a candidate is worth (R82 to R85) -/

section Worth

variable {t : BankTable} {snap : Vector (Option SnapTarget) 8} {len : Nat} {ds : List Defect} {c : Nat × Nat}
  {g : Fin 8}

theorem valueOf_of_gradeX
    (h : t.gradeOf (len - c.1 - c.2) (ds.filter (fun d => d.inPiece len c.1 c.2)) = none) :
    valueOf t snap len ds c = ⟨c.1, c.2, len - c.1 - c.2, none, 0, false⟩ := by
  simp only [valueOf, h]

section Graded

variable (h : t.gradeOf (len - c.1 - c.2) (ds.filter (fun d => d.inPiece len c.1 c.2)) = some g)
include h

theorem valueOf_of_no_target (hsnap : snap[g] = none) :
    valueOf t snap len ds c
      = ⟨c.1, c.2, len - c.1 - c.2, some g, t.value g (len - c.1 - c.2), false⟩ := by
  simp only [valueOf, h, hsnap]

theorem valueOf_of_applies {k : SnapTarget} (hsnap : snap[g] = some k) (happ : k.applies (len - c.1 - c.2) = true) :
    valueOf t snap len ds c = ⟨c.1, c.2, len - c.1 - c.2, some g,
      t.value g (len - c.1 - c.2) + t.value g (len - c.1 - c.2) * k.bonus / 100, true⟩ := by
  simp only [valueOf, h, hsnap, happ, if_true]

theorem valueOf_of_not_applies {k : SnapTarget} (hsnap : snap[g] = some k)
    (happ : ¬ k.applies (len - c.1 - c.2) = true) :
    valueOf t snap len ds c
      = ⟨c.1, c.2, len - c.1 - c.2, some g, t.value g (len - c.1 - c.2), false⟩ := by
  simp only [valueOf, h, hsnap, if_neg happ]

end Graded

/-- Whatever it is worth, a candidate is valued as itself, on the defects in its piece. -/
theorem valueOf_describes (t : BankTable) (snap : Vector (Option SnapTarget) 8) (len : Nat) (ds : List Defect)
    (c : Nat × Nat) :
    (valueOf t snap len ds c).t1 = c.1 ∧ (valueOf t snap len ds c).len = len - c.1 - c.2
      ∧ (valueOf t snap len ds c).grade
        = t.gradeOf (len - c.1 - c.2) (ds.filter (fun d => d.inPiece len c.1 c.2)) := by
  cases h : t.gradeOf (len - c.1 - c.2) (ds.filter (fun d => d.inPiece len c.1 c.2)) with
  | none => simp [valueOf_of_gradeX h]
  | some g =>
    cases hsnap : snap[g] with
    | none => simp [valueOf_of_no_target h hsnap]
    | some k =>
      by_cases happ : k.applies (len - c.1 - c.2) = true
      · simp [valueOf_of_applies h hsnap happ]
      · simp [valueOf_of_not_applies h hsnap happ]

@[simp] theorem valueOf_t1 : (valueOf t snap len ds c).t1 = c.1 := (valueOf_describes t snap len ds c).1

@[simp] theorem valueOf_len : (valueOf t snap len ds c).len = len - c.1 - c.2 :=
  (valueOf_describes t snap len ds c).2.1

theorem valueOf_grade : (valueOf t snap len ds c).grade
    = t.gradeOf (len - c.1 - c.2) (ds.filter (fun d => d.inPiece len c.1 c.2)) :=
  (valueOf_describes t snap len ds c).2.2

theorem valueOf_of_grade_none (hgrade : (valueOf t snap len ds c).grade = none) :
    (valueOf t snap len ds c).value = 0 ∧ (valueOf t snap len ds c).bonus = false := by
  rw [valueOf_grade] at hgrade
  simp [valueOf_of_gradeX hgrade]

end Worth

theorem SnapTarget.applies_iff (k : SnapTarget) (len : Nat) :
    k.applies len = true ↔ ∃ gap ∈ k.gaps, len + k.joint ≤ gap ∧ gap ≤ len + k.joint + k.tolerance := by
  simp only [applies, List.any_eq_true, Bool.and_eq_true, decide_eq_true_eq]

theorem fillBonus_le {value bonus : Nat} (hvalue : value ≤ 196605) (hbonus : bonus ≤ 50) :
    value + value * bonus / 100 ≤ 294907 :=
  calc value + value * bonus / 100
    _ ≤ 196605 + 196605 * 50 / 100 :=
      Nat.add_le_add hvalue (Nat.div_le_div_right (Nat.mul_le_mul hvalue hbonus))
    _ = 294907 := rfl

/-- Settles O30: a candidate is graded on the entries of the list that lie in its piece, and its value is the price of
its band by its length. -/
theorem defectsAndValue : Obligations.DefectsAndValue := by
  refine ⟨⟨fun d len t1 t2 => ⟨d.inPiece_iff len t1 t2, fun hext => ?point⟩,
      fun t snap len ds t1 t2 => valueOf_grade⟩,
    fun bands len => ⟨bandOf_eq_length_filter bands len, bandOf_le_seven bands len⟩, by decide, by decide,
    fun t g len => ⟨rfl, val_bandIdx t.bands len⟩, fun t g len => BankTable.value_le,
    fun t g => BankTable.value_greatest, fun t snap len ds c hX => (valueOf_of_grade_none hX).1⟩
  case point =>
    rw [d.inPiece_iff, hext, Nat.add_zero, and_comm]

/-- Settles O31: the accepting rule and the grade are each the first of a list in index order, and a grade's counts are
those of its rules' defects. -/
theorem gradeOfPiece : Obligations.GradeOfPiece := by
  refine fun t => ⟨fun g d k => ?accepting, fun g len ds => ⟨t.admits_iff g len ds, t.admits_nil_iff g len,
    t.gradeOf_eq_some_iff g len ds, t.gradeOf_eq_none_iff len ds⟩, fun snap len ds t1 t2 => valueOf_grade⟩
  case accepting =>
    simp only [← GradeRule.matches_iff]
    exact ⟨t.acceptor_eq_some_iff g d k, t.acceptor_eq_none_iff g d⟩

end Sys2Proof.Machine
end

section
/-! The best of a list (R86, R136): the selection of a solve and the best fit of a pocket are the maximum and the minimum
of a list by a key, the first of equals kept. -/

namespace Sys2Proof.Machine

/-! ### The candidates (R81) -/

theorem BankTable.trims_le_of_mem_candidates {t : BankTable} {len : Nat} {c : Nat × Nat}
    (hc : c ∈ t.candidates len) : 150 + c.1 + c.2 ≤ len :=
  of_decide_eq_true (List.mem_filter.mp hc).2

/-- A candidate leaves a piece, so that its trims are read back from the length of the piece. -/
theorem BankTable.candidate_ext {t : BankTable} {len : Nat} {c d : Nat × Nat} (hc : c ∈ t.candidates len)
    (hd : d ∈ t.candidates len) (hlen : len - c.1 - c.2 = len - d.1 - d.2) (ht1 : c.1 = d.1) : c = d := by
  have hcle := trims_le_of_mem_candidates hc
  have hdle := trims_le_of_mem_candidates hd
  exact Prod.ext ht1 (by omega)

/-! ### The order of the candidates (R86) -/

/-- The key of the selection: value, then length, then the smaller lead trim. -/
def Valued.rank (v : Valued) : Nat ×ₗ Nat ×ₗ Natᵒᵈ := toLex (v.value, toLex (v.len, OrderDual.toDual v.t1))

theorem Valued.beats_iff_rank_lt (a b : Valued) : a.beats b = true ↔ b.rank < a.rank := by
  simp only [beats, rank, Prod.Lex.toLex_lt_toLex, OrderDual.toDual_lt_toDual, Bool.or_eq_true, Bool.and_eq_true,
    decide_eq_true_eq, @eq_comm _ a.value, @eq_comm _ a.len]

theorem Valued.rank_le_iff (a b : Valued) : a.rank ≤ b.rank ↔
    a.value < b.value ∨ (a.value = b.value ∧ (a.len < b.len ∨ (a.len = b.len ∧ b.t1 ≤ a.t1))) := by
  simp only [rank, Prod.Lex.toLex_le_toLex, OrderDual.toDual_le_toDual]

theorem Valued.better_eq_ite (best : Option Valued) (a : Valued) :
    Valued.better best a
      = if a.grade.isSome = true then List.argAux (fun b c => c.rank < b.rank) best a else best := by
  cases hgrade : a.grade with
  | none => simp [better, hgrade]
  | some g =>
    cases best with
    | none => simp [better, hgrade, List.argAux]
    | some b => simp [better, hgrade, List.argAux, beats_iff_rank_lt]

theorem Valued.foldl_better (l : List Valued) :
    l.foldl Valued.better none = (l.filter (fun v => v.grade.isSome)).argmax Valued.rank := by
  rw [List.argmax, List.foldl_filter]
  exact congrArg (fun f => l.foldl f none) (funext₂ better_eq_ite)

/-! ### The selection (R86, R88) -/

/-- The candidates of a grade other than X, as valued. -/
def gradedCandidates (t : BankTable) (snap : Vector (Option SnapTarget) 8) (len : Nat) (ds : List Defect) :
    List Valued :=
  ((t.candidates len).map (valueOf t snap len ds)).filter (fun v => v.grade.isSome)

section Select

variable {t : BankTable} {snap : Vector (Option SnapTarget) 8} {len : Nat} {ds : List Defect}

theorem mem_gradedCandidates {v : Valued} : v ∈ gradedCandidates t snap len ds ↔
    (∃ c ∈ t.candidates len, v = valueOf t snap len ds c) ∧ v.grade.isSome = true := by
  simp only [gradedCandidates, List.mem_filter, List.mem_map, eq_comm]

theorem gradedCandidates_eq_nil (h : ∀ c ∈ t.candidates len, (valueOf t snap len ds c).grade = none) :
    gradedCandidates t snap len ds = [] := by
  refine List.eq_nil_iff_forall_not_mem.mpr fun v hv => ?_
  obtain ⟨⟨c, hc, rfl⟩, hgraded⟩ := mem_gradedCandidates.mp hv
  simp [h c hc] at hgraded

theorem select_of_no_candidate (h : t.candidates len = []) : select t snap len ds = none := by
  simp only [select, h]

theorem select_of_candidates (h : t.candidates len ≠ []) :
    select t snap len ds = some (((gradedCandidates t snap len ds).argmax Valued.rank).getD
      ⟨t.tmin, t.tmin, len - t.tmin - t.tmin, none, 0, false⟩) := by
  obtain ⟨c, cs, hcs⟩ := List.exists_cons_of_ne_nil h
  rw [gradedCandidates, ← Valued.foldl_better, hcs, select, hcs]
  dsimp only
  cases ((c :: cs).map (valueOf t snap len ds)).foldl Valued.better none with
  | none => rfl
  | some v => rfl

/-- With a graded candidate, what is selected is the greatest of the graded ones. -/
theorem mem_argmax_of_select {v w : Valued} (hsel : select t snap len ds = some v)
    (hw : w ∈ gradedCandidates t snap len ds) : v ∈ (gradedCandidates t snap len ds).argmax Valued.rank := by
  obtain ⟨⟨c, hc, -⟩, -⟩ := mem_gradedCandidates.mp hw
  rw [select_of_candidates (List.ne_nil_of_mem hc)] at hsel
  cases hmax : (gradedCandidates t snap len ds).argmax Valued.rank with
  | none => exact absurd (List.argmax_eq_none.mp hmax) (List.ne_nil_of_mem hw)
  | some m => simpa [hmax] using hsel

end Select

/-- Settles O33: the selection is the maximum of the graded candidates by value, length and lead trim. -/
theorem selection : Obligations.Selection := by
  intro t snap len ds
  refine ⟨fun v c hsel hc hgraded => ?best, fun c d hc hd hlen ht1 => ?unique, fun hne hX => ?allX,
    fun hne => ?selects, fun hnil => select_of_no_candidate hnil⟩
  case best =>
    have hmem : valueOf t snap len ds c ∈ gradedCandidates t snap len ds :=
      mem_gradedCandidates.mpr ⟨⟨c, hc, rfl⟩, hgraded⟩
    have hmax := mem_argmax_of_select hsel hmem
    obtain ⟨hcandidate, hv⟩ := mem_gradedCandidates.mp (List.argmax_mem hmax)
    exact ⟨hv, hcandidate, (Valued.rank_le_iff _ v).mp (List.le_of_mem_argmax hmem hmax)⟩
  case unique =>
    exact BankTable.candidate_ext hc hd (by simpa using hlen) (by simpa using ht1)
  case allX =>
    rw [select_of_candidates hne, gradedCandidates_eq_nil hX]
    rfl
  case selects =>
    rw [select_of_candidates hne]
    rfl

/-! ### The best fit of a pocket (R136) -/

namespace Pocket

theorem tighter_eq_argAux (k : Pocket) : k.tighter = List.argAux (fun r q => k.gap r < k.gap q) := by
  funext best r
  cases best <;> rfl

theorem fit_eq_argmin (k : Pocket) (need : Nat) :
    k.fit need = (k.rows.filter (fun r => decide (need ≤ k.gap r))).argmin k.gap := by
  rw [fit, tighter_eq_argAux]
  rfl

theorem sortedLT_filter_rows (k : Pocket) (p : Fin 12 → Bool) : (k.rows.filter p).SortedLT :=
  (((List.sortedLT_finRange 12).pairwise.filter _).filter p).sortedLT

end Pocket

/-- In a list that goes up, the place of an element tells the order. -/
theorem le_of_idxOf_le {n : Nat} {l : List (Fin n)} (hl : l.SortedLT) {r q : Fin n} (hr : r ∈ l) (hq : q ∈ l)
    (hle : l.idxOf r ≤ l.idxOf q) : r ≤ q := by
  have hmono := hl.strictMono_get.monotone
    (a := ⟨l.idxOf r, List.idxOf_lt_length_of_mem hr⟩) (b := ⟨l.idxOf q, List.idxOf_lt_length_of_mem hq⟩) hle
  simpa using hmono

theorem Pocket.fit_eq_none_iff (k : Pocket) (need : Nat) :
    k.fit need = none ↔ ∀ r ∈ k.rows, k.gap r < need := by
  simp [fit_eq_argmin]

theorem Pocket.best_of_fit {k : Pocket} {need : Nat} {r : Fin 12} (h : k.fit need = some r) :
    r ∈ k.rows ∧ need ≤ k.gap r
      ∧ ∀ q ∈ k.rows, need ≤ k.gap q → k.gap r < k.gap q ∨ (k.gap r = k.gap q ∧ r ≤ q) := by
  rw [fit_eq_argmin, List.argmin_eq_some_iff] at h
  obtain ⟨hr, hmin, hfirst⟩ := h
  obtain ⟨hrow, hneed⟩ := List.mem_filter.mp hr
  refine ⟨hrow, of_decide_eq_true hneed, fun q hq hqneed => ?_⟩
  have hmem : q ∈ k.rows.filter (fun r => decide (need ≤ k.gap r)) :=
    List.mem_filter.mpr ⟨hq, decide_eq_true hqneed⟩
  obtain hlt | heq := (hmin q hmem).lt_or_eq
  · exact .inl hlt
  · exact .inr ⟨heq, le_of_idxOf_le (k.sortedLT_filter_rows _) hr hmem (hfirst q hmem heq.ge)⟩

/-! ### The snapshot of a target (R80) -/

theorem State.snapTarget_eq_some {s : State} {g : Fin 8} {k : SnapTarget} (h : s.snapTarget g = some k) :
    ∃ p, s.target g = some p ∧ k.joint = (s.pocket p).cfg.joint ∧ k.tolerance = (s.pocket p).cfg.tolerance
      ∧ k.bonus = (s.pocket p).cfg.bonus ∧ k.gaps = (s.pocket p).rows.map (s.pocket p).gap := by
  obtain ⟨p, hp, rfl⟩ := Option.map_eq_some_iff.mp h
  exact ⟨p, hp, rfl, rfl, rfl, rfl⟩

/-- Settles O32: the target of the grade gives the bonus or not, with its own settings; the fit is the smallest gap. -/
theorem fillBonus : Obligations.FillBonus := by
  refine ⟨fun t snap len ds t1 t2 => ⟨fun g hg => ?graded, valueOf_of_grade_none⟩,
    fun s g k => State.snapTarget_eq_some, fun value bonus => fillBonus_le, rfl,
    fun k need r => Pocket.best_of_fit, Pocket.fit_eq_none_iff⟩
  case graded =>
    rw [valueOf_grade] at hg
    simp only [← SnapTarget.applies_iff]
    refine ⟨fun k hsnap happ => ?bonus, fun hno => ?plain⟩
    case bonus =>
      rw [valueOf_of_applies hg hsnap happ]
      exact ⟨rfl, rfl⟩
    case plain =>
      cases hsnap : snap[g] with
      | none =>
        rw [valueOf_of_no_target hg hsnap]
        exact ⟨rfl, rfl⟩
      | some k =>
        rw [valueOf_of_not_applies hg hsnap (hno k hsnap)]
        exact ⟨rfl, rfl⟩

end Sys2Proof.Machine
end

section
/-! The admission of reports (R192): the room that a kind needs, the start of a report on an idle transmitter, the two
values in the frame, and what the resets leave in the report queue. -/

namespace Sys2Proof.Machine

/-! ### Mask and room -/

theorem Report.isPiece_iff (r : Report) : r.isPiece = true ↔ r.kindIndex = 0 := by
  cases r <;> simp [isPiece, kindIndex]

namespace State

/-- The eight entries are kept from PIECE alone; every other kind needs one. -/
theorem hasRoom_iff (s : State) (r : Report) :
    s.hasRoom r = true ↔
      (r.kindIndex = 0 → 8 ≤ 48 - s.reports.queue.length) ∧ 48 - s.reports.queue.length ≠ 0 := by
  have hfree : 48 - s.reports.queue.length = s.freeReports := rfl
  rw [← r.isPiece_iff, hfree]
  cases hpiece : r.isPiece with
  | true =>
    have hreserve : 8 ≤ s.freeReports → s.freeReports ≠ 0 := by omega
    simpa [hasRoom, hpiece] using hreserve
  | false => simp [hasRoom, hpiece, Nat.one_le_iff_ne_zero]

theorem hasRoom_eq_false_iff (s : State) (r : Report) :
    s.hasRoom r = false ↔
      (r.kindIndex = 0 ∧ 48 - s.reports.queue.length < 8) ∨ 48 - s.reports.queue.length = 0 := by
  rw [← Bool.not_eq_true, hasRoom_iff, not_and_or, Classical.not_imp, Nat.not_le, not_not]

/-! ### The start of the admitted report (R191) -/

/-- A busy transmitter is left to its frame. -/
theorem arbitrate_of_busy {s : State} (hbusy : s.host.tx ≠ .idle) : s.arbitrate = s := by
  unfold arbitrate
  split
  case h_1 hidle => exact absurd hidle hbusy
  case h_2 => rfl

/-- With no reply waiting and a report held, the arbiter starts the report on an idle transmitter. -/
theorem arbitrate_of_no_reply {s : State} (hwaiting : s.host.waiting = none) (hheld : s.reports.queue ≠ []) :
    s.arbitrate = { s with host := { s.host with tx := if s.host.tx = .idle then .report else s.host.tx } } := by
  by_cases hidle : s.host.tx = .idle
  · simp [arbitrate, hidle, hwaiting, hheld]
  · rw [arbitrate_of_busy hidle, if_neg hidle]

/-- The arbiter is asked at an empty queue alone: a report that joins others leaves the transmitter to its frame. -/
theorem offer_admitted_of_no_reply {s : State} {r : Report} (hmask : s.masked r = false) (hroom : s.hasRoom r = true)
    (hwaiting : s.host.waiting = none) :
    s.offer r = { s.enqueueReport r with
      host := { s.host with tx := if s.reports.queue = [] ∧ s.host.tx = .idle then .report else s.host.tx } } := by
  by_cases hempty : s.reports.queue = []
  · have hoffer : s.offer r = (s.enqueueReport r).arbitrate := by simp [offer, hmask, hroom, hempty]
    have hwaiting' : (s.enqueueReport r).host.waiting = none := hwaiting
    rw [hoffer, arbitrate_of_no_reply hwaiting' (by simp [enqueueReport])]
    simp [enqueueReport, hempty]
  · have hoffer : s.offer r = s.enqueueReport r := by simp [offer, hmask, hroom, hempty]
    simp [hoffer, enqueueReport, hempty]

/-! ### The resets -/

theorem powerOn_reports (found : InputPins) (s : State) : (s.powerOn found).reports = {} := rfl

theorem softReset_reports (s : State) : s.softReset.reports = { mask := s.reports.mask } := by
  obtain ⟨lines, saw, hreset, -, -⟩ := softReset_changes s
  rw [hreset]
  rfl

end State

theorem exec_powerOnReset (found : InputPins) (s : State) : exec (.powerOnReset found) s = .next (s.powerOn found) := rfl

theorem exec_softReset (s : State) : exec .softReset s = .next s.softReset := rfl

/-! ### The frame of an admitted report (R192, R201) -/

@[simp] theorem QueuedReport.frame_id (q : QueuedReport) : q.frame.id = q.seq := rfl

@[simp] theorem QueuedReport.frame_payload (q : QueuedReport) : q.frame.payload = be16 q.lost ++ q.body.fields := rfl

/-- Settles O45: the mask is asked first, then the room; the frame and the resets have their two values by definition. -/
theorem reportAdmission : Obligations.ReportAdmission := by
  refine ⟨fun s r => ⟨State.offer_masked, ?lost, ?admitted⟩, fun q => ⟨q.frame_id, ?frame⟩, ?resets⟩
  case lost =>
    intro hmask hfull
    exact State.offer_lost hmask ((s.hasRoom_eq_false_iff r).mpr hfull)
  case admitted =>
    intro hmask hpiece hfree
    have hroom : s.hasRoom r = true := (s.hasRoom_iff r).mpr ⟨hpiece, hfree⟩
    refine ⟨State.offer_admitted hmask hroom, fun hwaiting => ?_⟩
    rw [State.offer_admitted hmask hroom]
    exact State.offer_admitted_of_no_reply hmask hroom hwaiting
  case frame => simp
  case resets =>
    rintro s t found (hnext | hnext)
    · rw [exec_powerOnReset, Host.Outcome.next.injEq] at hnext
      rw [← hnext, State.powerOn_reports]
      exact ⟨rfl, rfl⟩
    · rw [exec_softReset, Host.Outcome.next.injEq] at hnext
      rw [← hnext, State.softReset_reports]
      exact ⟨rfl, rfl⟩

end Sys2Proof.Machine
end

section
/-! What every command keeps: the queue of waiting commands, the bounds of the queues, the guard of the protected pairs and
the partition of the records; and that every command answers a next state. -/

namespace Sys2Proof.Machine

open Sys2Proof.Config

/-- `t` comes from `s` by commands. Other than `State.Calm` it lets the request queue change. -/
structure State.Keeps (s t : State) : Prop where
  pending : t.pending = s.pending
  bounded : s.Bounded → t.Bounded
  pairs   : s.PairsGuarded → t.PairsGuarded
  lists   : s.pool.Partitioned → t.pool.Partitioned

theorem Pool.reset_partitioned : Pool.reset.Partitioned where
  freeNodup := List.nodup_finRange 64
  secNodup x := by cases x <;> simp [Pool.reset]
  free i := by simp [Pool.reset]
  onSec x i := by cases x <;> simp [Pool.reset, locOf]
  blank i _ := by simp [Pool.reset]

namespace State

variable {s t u : State}

theorem Keeps.rfl' : s.Keeps s := ⟨rfl, id, id, id⟩

theorem Keeps.trans (h : s.Keeps t) (k : t.Keeps u) : s.Keeps u :=
  ⟨k.pending.trans h.pending, k.bounded ∘ h.bounded, k.pairs ∘ h.pairs, k.lists ∘ h.lists⟩

theorem Calm.keeps (h : s.Calm t) : s.Keeps t := ⟨h.pending, h.bounded, h.pairs, h.lists⟩

theorem Keeps.calm (h : s.Keeps t) (k : t.Calm u) : s.Keeps u := h.trans k.keeps

/-! ### The request queue (R189) -/

/-- An update of the host link that keeps the bound of the request queue. -/
theorem modHost_keeps {g : HostLink → HostLink}
    (requests : s.host.requests.length ≤ nRequests → (g s.host).requests.length ≤ nRequests) : s.Keeps (s.modHost g) where
  pending := rfl
  bounded b := ⟨b.reports, requests b.requests, b.starts, b.intake, b.labels, b.schedules⟩
  pairs := id
  lists := id

theorem takeRequest_calm (f : Frame) (s : State) : s.Calm (s.takeRequest f) := handReply_calm (answer_calm Calm.rfl')

theorem takeHead_calm (s : State) : s.Calm s.takeHead := by
  unfold takeHead
  split
  · exact Calm.rfl'
  · exact takeRequest_calm _ s

theorem queueRequest_keeps {f : Frame} (room : s.host.requests.length < nRequests) : s.Keeps (s.queueRequest f) := by
  have hjoin : s.Keeps (s.modHost (fun h => { h with requests := h.requests ++ [f] })) :=
    modHost_keeps fun _ => by simpa using room
  unfold queueRequest
  dsimp only
  split
  · exact hjoin.calm (takeHead_calm _)
  · exact hjoin

theorem hostArrive_keeps (f : Frame) (s : State) : s.Keeps (s.hostArrive f) := by
  have hheard : s.Keeps (s.modHost (fun h => { h with rxHost := .hunting })) := modHost_keeps id
  unfold hostArrive
  dsimp only
  split
  · split
    case isTrue room => exact hheard.trans (queueRequest_keeps room)
    case isFalse => exact hheard.trans (modHost_keeps id)
  · exact hheard.trans (modHost_keeps id)

/-! ### The links (R187 to R193) -/

theorem frameArrives_keeps (link : Link) (f : Frame) (s : State) : s.Keeps (s.frameArrives link f) := by
  cases link with
  | host => exact hostArrive_keeps f s
  | scan => exact (intakeOffer_calm (scanHunts_calm Calm.rfl')).keeps
  | printer =>
    unfold frameArrives printerFrame
    dsimp only
    split
    · split
      · exact (takeAck_calm (printerHunts_calm Calm.rfl')).keeps
      · exact (takeNak_calm (printerHunts_calm Calm.rfl')).keeps
    · exact (printerError_calm Calm.rfl').keeps

theorem setReceiver_calm (link : Link) (r : Receiver) (s : State) : s.Calm (s.setReceiver link r) := by
  cases link <;> exact Calm.rfl'.same

theorem takeBytes_keeps_invariants (link : Link) (bytes : List LineByte) (s : State) : s.Keeps (s.takeBytes link bytes) :=
  takeBytes_induction (P := s.Keeps) (fun v r h => h.calm (setReceiver_calm link r v))
    (fun v f h => h.trans (frameArrives_keeps link f v)) (fun _ _ h => h.calm (linkError_calm Calm.rfl')) bytes s Keeps.rfl'

theorem gap_calm (link : Link) (s : State) : s.Calm (s.gap link) := by
  unfold gap
  split
  · exact Calm.rfl'
  · exact linkError_calm Calm.rfl'

theorem txIdle_keeps (s : State) : s.Keeps s.txIdle :=
  (modHost_keeps (g := fun h => { h with tx := .idle }) id).calm (arbitrate_calm Calm.rfl')

theorem reportSent_keeps (s : State) : s.Keeps s.reportSent := by
  unfold reportSent
  split
  · refine Keeps.trans (t := { s with reports := { s.reports with queue := s.reports.queue.tail } }) ?_ (txIdle_keeps _)
    exact ⟨rfl, fun b => ⟨List.tail_sublist _ |>.length_le.trans b.reports, b.requests, b.starts, b.intake, b.labels,
      b.schedules⟩, id, id⟩
  · exact Keeps.rfl'

/-! ### The resets (R19, R199) -/

theorem softReset_pairs (s : State) : s.softReset.out.pairs = s.softBlocks.out.pairs := by
  obtain ⟨lines, saw, hreset, -, -⟩ := softReset_changes s
  exact congrArg (fun t => t.out.pairs) hreset

theorem softReset_pair (p : Fin 6) (s : State) : s.softReset.pair p = (s.pair p).map Pair.rest := by
  rw [← softBlocks_pair]
  simp only [pair, softReset_pairs]

/-- Every block but the output stage is as the blocks' own resets leave it. -/
theorem softReset_block {β : Type} {block : State → β} (s : State)
    (out : ∀ (t : State) (o : OutputStage), block { t with out := o } = block t) :
    block s.softReset = block s.softBlocks := by
  obtain ⟨lines, saw, hreset, -, -⟩ := softReset_changes s
  exact (congrArg block hreset).trans (out _ _)

theorem softReset_pending (s : State) : s.softReset.pending = s.pending :=
  (softReset_block s fun _ _ => rfl).trans (softBlocks_pending s)

theorem softReset_pool (s : State) : s.softReset.pool = Pool.reset := softReset_block s fun _ _ => rfl

theorem softReset_scan (s : State) : s.softReset.scan = { starts := s.scan.starts.take 1 } :=
  softReset_block s fun _ _ => rfl

theorem softReset_sec (x : Sec) (s : State) :
    s.softReset.sec x = (s.sec x).softReset s.pins.eyes[x.idx] := by
  rw [softReset_block (block := fun t => t.sec x) s fun _ _ => rfl]
  simp [sec, softBlocks]

theorem softReset_labels (s : State) : s.softReset.labels = s.labels.softReset s.pins.stop :=
  softReset_block s fun _ _ => rfl

theorem softReset_host (s : State) : s.softReset.host = { rate := s.host.rate } := softReset_block s fun _ _ => rfl

theorem softReset_bounded (s : State) : s.softReset.Bounded where
  reports := by simp [softReset_reports]
  requests := by simp [softReset_host]
  starts := by simp [softReset_scan]
  intake := by simp [softReset_scan]
  labels := by simp [softReset_labels, LabelChannel.softReset]
  schedules x := by simp [softReset_sec, SectionUnit.softReset]

theorem softReset_keeps (s : State) : s.Keeps s.softReset where
  pending := softReset_pending s
  bounded _ := softReset_bounded s
  pairs h p q hq := by
    rw [softReset_pair] at hq
    obtain ⟨r, hr, rfl⟩ := Option.map_eq_some_iff.mp hq
    exact (h p r hr).rest
  lists _ := (softReset_pool s).symm ▸ Pool.reset_partitioned

theorem powerOn_keeps (found : InputPins) (s : State) : s.Keeps (s.powerOn found) where
  pending := rfl
  bounded _ := ⟨Nat.zero_le _, Nat.zero_le _, Nat.zero_le _, Nat.zero_le _, Nat.zero_le _, fun x => by simp [sec, powerOn]⟩
  pairs _ p q hq := by simp [pair, powerOn, State.reset] at hq
  lists _ := Pool.reset_partitioned

theorem replySent_keeps (s : State) : s.Keeps s.replySent := by
  unfold replySent
  split
  · split
    · exact softReset_keeps s
    · refine Keeps.trans ((modHost_keeps fun b => ?_).calm (takeHead_calm _)) (txIdle_keeps _)
      exact (List.tail_sublist _).length_le.trans b
  · exact Keeps.rfl'

/-! ### The rows of the intake queue (R53) -/

/-- A row that takes the frame at the head of the intake queue when it fits it. -/
theorem fittingFrame_calm {deal : Frame → State → State} (test : Frame → Bool)
    (deals : ∀ (f : Frame) (u : State), s.Calm u → s.Calm (deal f u)) :
    s.Calm (if s.headFits test then s.takeFrame deal else s) := by
  split
  · exact takeFrame_calm Calm.rfl' deals
  · exact Calm.rfl'

end State

open State

/-! ### Every command -/

/-- Every command answers a next state, and keeps the queue of commands and the three invariants. -/
theorem exec_keeps (c : Instr) (s : State) : ∃ t, exec c s = .next t ∧ s.Keeps t := by
  cases c with
  | powerOnReset found => exact ⟨_, rfl, powerOn_keeps found s⟩
  | softReset => exact ⟨_, rfl, softReset_keeps s⟩
  | rawCount x phase => exact ⟨_, rfl, (rawCount_calm Calm.rfl').keeps⟩
  | eyeInputChange x blocked => exact ⟨_, rfl, (eyeInput_calm Calm.rfl').keeps⟩
  | scanStartSent =>
    exact ⟨_, rfl, (modScan_calm Calm.rfl' (fun b => (List.tail_sublist _).length_le.trans b) id).keeps⟩
  | scanFrameReceived kind id p => exact ⟨_, rfl, (intakeOffer_calm (scanHunts_calm Calm.rfl')).keeps⟩
  | defects => exact ⟨_, rfl, (fittingFrame_calm _ fun _ _ => takeDefects_calm).keeps⟩
  | scanEnd => exact ⟨_, rfl, (fittingFrame_calm _ fun _ _ => takeScanEnd_calm).keeps⟩
  | profile => exact ⟨_, rfl, (fittingFrame_calm _ fun _ _ => takeProfile_calm).keeps⟩
  | malformedScanFrame => exact ⟨_, rfl, (fittingFrame_calm _ fun _ _ => malformed_calm).keeps⟩
  | solveComplete => exact ⟨_, rfl, (solveComplete_calm Calm.rfl').keeps⟩
  | pulseWidthExpiry l => exact ⟨_, rfl, (pulseEnds_calm Calm.rfl').keeps⟩
  | pullInExpiry l => exact ⟨_, rfl, (pullInEnds_calm Calm.rfl').keeps⟩
  | chopPeriod l => exact ⟨_, rfl, (chopEnds_calm Calm.rfl').keeps⟩
  | deadTimeExpiry p => exact ⟨_, rfl, (deadTimeEnds_calm Calm.rfl').keeps⟩
  | sawRecoveryExpiry => exact ⟨_, rfl, (sawReady_calm Calm.rfl').keeps⟩
  | clearEdge p event =>
    cases event with
    | takes active => exact ⟨_, rfl, (clearInput_calm Calm.rfl').keeps⟩
    | held => exact ⟨_, rfl, (clearHeld_calm Calm.rfl').keeps⟩
  | paceInterval => exact ⟨_, rfl, (paceEnds_calm Calm.rfl').keeps⟩
  | labelTransmissionComplete => exact ⟨_, rfl, (transmissionEnds_calm Calm.rfl').keeps⟩
  | ack serial => exact ⟨_, rfl, (takeAck_calm (printerHunts_calm Calm.rfl')).keeps⟩
  | nak serial code => exact ⟨_, rfl, (takeNak_calm (printerHunts_calm Calm.rfl')).keeps⟩
  | ackTimeout => exact ⟨_, rfl, (ackExpires_calm Calm.rfl').keeps⟩
  | readyChange asserted => exact ⟨_, rfl, (readyInput_calm Calm.rfl').keeps⟩
  | stopChange asserted => exact ⟨_, rfl, (stopInput_calm Calm.rfl').keeps⟩
  | printerMalformedFrame kind id p =>
    refine ⟨_, rfl, ?_⟩
    split
    · exact Keeps.rfl'
    · exact (printerError_calm Calm.rfl').keeps
  | frameError link bytes => exact ⟨_, rfl, takeBytes_keeps_invariants link bytes s⟩
  | linkGapTimeout burst => exact ⟨_, rfl, (takeBytes_keeps_invariants _ _ s).calm (gap_calm _ _)⟩
  | replySent => exact ⟨_, rfl, replySent_keeps s⟩
  | reportSent => exact ⟨_, rfl, reportSent_keeps s⟩
  | bothPhasesChange x => exact ⟨_, rfl, (togglePhase_calm (togglePhase_calm Calm.rfl')).keeps⟩
  | hostFrameReceived | unknownKind | identify | setSection | setOutput | armPair | setTrim | setGrade | setRules
  | setPrices | commitBank | setProfile | clearTrend | setPocket | setLine | setLabel | setReports | startLine | stopLine
  | haltLine | clearHalt | feedHold | reset | testOutputLevel | testOutputPulse | testOutputTarget | closePocket
  | holdPocket | releasePocket | clearPocket | pauseLabels | resumeLabels | skipLabel | reprintLabel | getState | getStrip
  | getPocket | getLabels | getCounts | clearCounts | getList => exact ⟨_, rfl, hostArrive_keeps _ s⟩

/-- Settles O2: the next state of each command is written out in its arm, and no arm touches the queue of commands. -/
theorem everyCommandCompletes : Obligations.EveryCommandCompletes := fun c s => by
  obtain ⟨t, hexec, hkeeps⟩ := exec_keeps c s
  exact ⟨t, hexec, hkeeps.pending⟩

/-! ### Every step -/

theorem step_cons (c : Instr) (rest : List Instr) (s : State) :
    step { s with pending := c :: rest } = exec c { s with pending := rest } := rfl

theorem step_idle {s : State} (h : s.pending = []) : step s = .next s.tick := by
  unfold step
  rw [h]

/-- Settles O1: the two arms of `step`. -/
theorem stepRunsFrontCommand : Obligations.StepRunsFrontCommand := ⟨step_cons, fun _ h => step_idle h⟩

/-- What a property of states owes to a step, when the queue of waiting commands is of no account to it: that a millisecond
keeps it and that every command keeps it. -/
theorem step_induction {P : State → Prop} {s t : State} (h : P s) (hstep : step s = .next t) (tick : P s → P s.tick)
    (queue : ∀ rest, P s → P { s with pending := rest }) (commands : ∀ c (u v : State), P u → exec c u = .next v → P v) :
    P t := by
  unfold step at hstep
  split at hstep
  · cases hstep
    exact tick h
  · exact commands _ _ t (queue _ h) hstep

/-- What `State.Keeps` carries over is carried over by every command. -/
theorem exec_keeps_of_next {c : Instr} {s t : State} (h : exec c s = .next t) : s.Keeps t := by
  obtain ⟨u, hu, hkeeps⟩ := exec_keeps c s
  rw [h, Host.Outcome.next.injEq] at hu
  exact hu ▸ hkeeps

/-- Settles O3: the queues are bounded before the step, and every command keeps the bounds. -/
theorem stepKeepsBounds : Obligations.StepKeepsBounds := fun _ _ h hstep =>
  step_induction h hstep (fun b => ⟨b.reports, b.requests, b.starts, b.intake, b.labels, b.schedules⟩)
    (fun _ b => ⟨b.reports, b.requests, b.starts, b.intake, b.labels, b.schedules⟩)
    fun _ _ _ hu he => (exec_keeps_of_next he).bounded hu

/-- Settles O4: every command keeps the guard of the pairs. -/
theorem stepKeepsPairsGuarded : Obligations.StepKeepsPairsGuarded := fun _ _ h hstep =>
  step_induction (P := PairsGuarded) h hstep id (fun _ => id) fun _ _ _ hu he => (exec_keeps_of_next he).pairs hu

/-- Settles O5: every command keeps the partition of the records. -/
theorem stepKeepsPartition : Obligations.StepKeepsPartition := fun _ _ h hstep =>
  step_induction (P := fun s => s.pool.Partitioned) h hstep id (fun _ => id)
    fun _ _ _ hu he => (exec_keeps_of_next he).lists hu

/-- Settles O6: after reset every queue is empty, no pair is armed, and every record is blank in FREE. -/
theorem resetMeetsInvariants : Obligations.ResetMeetsInvariants := by
  refine ⟨⟨Nat.zero_le _, Nat.zero_le _, Nat.zero_le _, Nat.zero_le _, Nat.zero_le _, fun x => ?_⟩, fun p q hq => ?_,
    Pool.reset_partitioned⟩
  · simp [sec, State.reset]
  · simp [pair, State.reset] at hq

/-- Settles O7: the reset value of each block, but for what the levels found on the pins decide. -/
theorem powerOnReset : Obligations.PowerOnReset := fun _ _ => rfl

end Sys2Proof.Machine
end

section
/-! The output stage: what a request does to a line by its state and configuration (R117 to R121), what a target request
does to a pair (R125 to R127), the expiry of the timers (R107, R118, R120, R126), and the feed-hold line after a soft reset
(R130, R199). -/

namespace Sys2Proof.Machine

/-! ### Lines -/

theorem Line.isOn_eq (l : Line) : l.isOn = decide (l.state ≠ .off) := by
  unfold isOn
  cases l.state <;> rfl

theorem Line.onPhase_eq (l : Line) (clock : Nat) :
    l.onPhase clock = if l.state ≠ .off then l.phase
      else if l.cfg.holdDuty then some (.full (clock + l.cfg.pullIn)) else none := by
  simp [onPhase, isOn_eq]

namespace State

/-- A change of a line that reads what it finds is the replacement by what it makes of it. -/
theorem modLine_const (l : Fin 24) (f : Line → Line) (s : State) : s.modLine l f = s.modLine l (fun _ => f (s.line l)) := rfl

theorem modLine_congr {l : Fin 24} {f g : Line → Line} {s : State} (h : f (s.line l) = g (s.line l)) :
    s.modLine l f = s.modLine l g := by
  rw [modLine_const, h]
  rfl

theorem beginPulse_eq (l : Fin 24) (s : State) :
    s.beginPulse l = { s.modLine l (fun x => x.pulseFrom s.clock) with
      out := { (s.modLine l (fun x => x.pulseFrom s.clock)).out with
        saw := if s.cuts.sawLine = some l then some (s.clock + s.cuts.sawRecovery) else s.out.saw } } := by
  unfold beginPulse
  dsimp only
  split <;> rfl

theorem pulseRequest_held {l : Fin 24} {s : State} (h : (s.line l).state = .held) : s.pulseRequest l = s := by
  simp [pulseRequest, h]

theorem pulseRequest_of_ne {l : Fin 24} {s : State} (h : (s.line l).state ≠ .held) :
    s.pulseRequest l = s.beginPulse l := by
  unfold pulseRequest
  split
  · exact absurd ‹_› h
  · rfl

theorem levelOn_held {l : Fin 24} {s : State} (h : (s.line l).state = .held) : s.levelOn l = s := by
  simp [levelOn, h]

theorem levelOn_pulse {l : Fin 24} {s : State} (h : (s.line l).state ≠ .held) (pulse : (s.line l).cfg.pulse = true) :
    s.levelOn l = s.beginPulse l := by
  unfold levelOn
  split
  · exact absurd ‹_› h
  · simp [pulse]

theorem levelOn_level {l : Fin 24} {s : State} (h : (s.line l).state ≠ .held) (level : (s.line l).cfg.pulse = false) :
    s.levelOn l = s.modLine l (fun x => x.holdFrom s.clock) := by
  unfold levelOn
  split
  · exact absurd ‹_› h
  · simp [level]

theorem beginPulse_line (l : Fin 24) (s : State) : (s.beginPulse l).line l = (s.line l).pulseFrom s.clock := by
  have hline : (s.modLine l (fun x => x.pulseFrom s.clock)).line l = (s.line l).pulseFrom s.clock := line_modLine l _ s
  rw [beginPulse_eq]
  exact hline

theorem beginPulse_saw (l : Fin 24) (s : State) :
    (s.beginPulse l).out.saw = if s.cuts.sawLine = some l then some (s.clock + s.cuts.sawRecovery) else s.out.saw := by
  rw [beginPulse_eq]

/-- A line that is off, asked on. -/
theorem levelOn_off_line {l : Fin 24} {s : State} (off : (s.line l).state = .off) :
    ((s.levelOn l).line l).state = (if (s.line l).cfg.pulse then .pulsing (s.clock + (s.line l).cfg.width) else .held)
      ∧ ((s.levelOn l).line l).phase
        = (if (s.line l).cfg.holdDuty then some (.full (s.clock + (s.line l).cfg.pullIn)) else none) := by
  have hne : (s.line l).state ≠ .held := by simp [off]
  cases hpulse : (s.line l).cfg.pulse with
  | true =>
    rw [levelOn_pulse hne hpulse, beginPulse_line]
    simp [Line.pulseFrom, Line.onPhase_eq, off]
  | false =>
    rw [levelOn_level hne hpulse, line_modLine]
    simp [Line.holdFrom, Line.onPhase_eq, off]

theorem levelOn_off_saw {l : Fin 24} {s : State} (off : (s.line l).state = .off) :
    (s.levelOn l).out.saw = if (s.line l).cfg.pulse = true ∧ s.cuts.sawLine = some l
      then some (s.clock + s.cuts.sawRecovery) else s.out.saw := by
  have hne : (s.line l).state ≠ .held := by simp [off]
  cases hpulse : (s.line l).cfg.pulse with
  | true => simp [levelOn_pulse hne hpulse, beginPulse_saw]
  | false => simp [levelOn_level hne hpulse, modLine]

/-! ### The feed-hold line after a soft reset (R130) -/

theorem softReset_unasked {s : State}
    (h : ∀ l, s.run.settings.feedLine = some l → (s.pairOf l).isSome = true) : s.softReset = s.softBlocks := by
  unfold softReset softFeedHold
  rw [softBlocks_feedLine]
  split
  · rfl
  · rename_i l hl
    rw [softBlocks_pairOf, if_pos (h l hl)]

theorem softReset_asked {s : State} {l : Fin 24} (feed : s.run.settings.feedLine = some l) (free : s.pairOf l = none) :
    s.softReset = s.softBlocks.levelOn l := by
  simp [softReset, softFeedHold, softBlocks_feedLine, feed, softBlocks_pairOf, free]

theorem softBlocks_saw (s : State) : s.softBlocks.out.saw = none := rfl

theorem softReset_unasked_off {s : State} (h : s.softReset = s.softBlocks) (l : Fin 24) :
    (s.softReset.line l).state = .off ∧ (s.softReset.line l).phase = none ∧ s.softReset.out.saw = none := by
  rw [h, softBlocks_line]
  exact ⟨rfl, rfl, rfl⟩

theorem softReset_asked_line {s : State} {l : Fin 24} (feed : s.run.settings.feedLine = some l) (free : s.pairOf l = none) :
    let c := (s.line l).cfg
    (s.softReset.line l).state = (if c.pulse then .pulsing (s.clock + c.width) else .held)
      ∧ (s.softReset.line l).phase = (if c.holdDuty then some (.full (s.clock + c.pullIn)) else none)
      ∧ s.softReset.out.saw
        = (if c.pulse = true ∧ s.cuts.sawLine = some l then some (s.clock + s.cuts.sawRecovery) else none) := by
  have hline : s.softBlocks.line l = (s.line l).turnOff := softBlocks_line l s
  have hoff : (s.softBlocks.line l).state = .off := by rw [hline]; rfl
  have hcfg : (s.softBlocks.line l).cfg = (s.line l).cfg := by rw [hline]; rfl
  have hlevel := levelOn_off_line hoff
  have hsaw := levelOn_off_saw hoff
  rw [hcfg, softBlocks_clock] at hlevel hsaw
  rw [softReset_asked feed free]
  exact ⟨hlevel.1, hlevel.2, hsaw⟩

theorem softReset_saw {s : State} (h : s.cuts.sawLine = none ∨ s.run.settings.feedLine ≠ s.cuts.sawLine) :
    s.softReset.out.saw = none := by
  cases hfeed : s.run.settings.feedLine with
  | none => rw [softReset_unasked (by simp [hfeed]), softBlocks_saw]
  | some l =>
    cases hpair : s.pairOf l with
    | some p => rw [softReset_unasked (by simp [hfeed, hpair]), softBlocks_saw]
    | none =>
      have hne : s.cuts.sawLine ≠ some l := by
        rcases h with h | h
        · simp [h]
        · exact fun k => h (by rw [hfeed, k])
      simp [(softReset_asked_line hfeed hpair).2.2, hne]

/-! ### The pockets after a soft reset (R154) -/

theorem softReset_pocket (p : Fin 12) (s : State) : s.softReset.pocket p = (s.pocket p).softReset := by
  rw [softReset_block (block := fun t => t.pocket p) s fun _ _ => rfl]
  simp [pocket, softBlocks]

end State

theorem Pocket.losesContents_iff (k : Pocket) :
    k.losesContents = true ↔ k.bundle.isSome = true ∨ (k.cfg.isBin = true ∧ 0 < k.count)
      ∨ (k.state = .stalled ∧ k.lost = true) := by
  simp [losesContents, or_assoc]

theorem Pocket.softReset_lost (k : Pocket) : k.softReset.lost = k.losesContents := by
  unfold softReset
  split
  · simp [*]
  · split <;> simp [*]

theorem Pocket.softReset_state (k : Pocket) :
    k.softReset.state = if k.softReset.lost then .stalled else if k.state = .offline then .offline else .empty := by
  rw [softReset_lost]
  unfold softReset
  split
  · rfl
  · split <;> rfl

theorem Pocket.softReset_empty (k : Pocket) :
    k.softReset.cfg = k.cfg ∧ k.softReset.bundle = none ∧ k.softReset.count = 0 := by
  unfold softReset
  split
  · exact ⟨rfl, rfl, rfl⟩
  · split <;> exact ⟨rfl, rfl, rfl⟩

open State in
/-- Settles O8: each block by its own reset; the feed-hold line is the one line that a soft reset can leave on. -/
theorem softReset : Obligations.SoftReset := by
  intro s
  obtain ⟨lines, saw, hreset, hcfg, hoff⟩ := softReset_changes s
  have hline : ∀ l : Fin 24, s.softReset.line l = lines[l] := fun l => by rw [hreset]; rfl
  refine ⟨_, exec_softReset s, softReset_pool s, fun x => softReset_sec x s, softReset_block s fun _ _ => rfl,
    softReset_block s fun _ _ => rfl, softReset_scan s, softReset_block s fun _ _ => rfl,
    softReset_block s fun _ _ => rfl, fun p => softReset_pair p s, fun l => by rw [hline, hcfg],
    fun l hl => by rw [hline, hoff l hl]; exact ⟨rfl, rfl⟩, fun p => ?pocket, fun p => ?contents, softReset_saw,
    fun l hfeed hpair => ?paired, fun l hfeed hfree => softReset_asked_line hfeed hfree, fun p => ?clears,
    softReset_labels s, softReset_block s fun _ _ => rfl, softReset_reports s, softReset_host s, ?pins, ?clock, ?choice,
    softReset_pending s⟩
  case pocket =>
    rw [softReset_pocket]
    exact (s.pocket p).softReset_empty
  case contents =>
    rw [softReset_pocket]
    exact ⟨by rw [Pocket.softReset_lost, Pocket.losesContents_iff], (s.pocket p).softReset_state⟩
  case paired =>
    refine softReset_unasked_off (softReset_unasked fun m hm => ?_) l
    rw [hfeed, Option.some.injEq] at hm
    exact hm ▸ hpair
  case clears =>
    rw [softReset_block (block := fun t => t.clears[p]) s fun _ _ => rfl]
    simp [softBlocks]
  case pins => exact (softReset_block s fun _ _ => rfl).trans (softBlocks_pins s)
  case clock => exact (softReset_block s fun _ _ => rfl).trans (softBlocks_clock s)
  case choice => exact (softReset_block s fun _ _ => rfl).trans (softBlocks_choice s)

end Sys2Proof.Machine
end

section
/-! The rows of the output stage: a target request as a pair takes it (R125 to R127), and the expiry of the timers
(R107, R118, R120, R126). -/

namespace Sys2Proof.Machine

/-! ### Target requests (R125 to R127) -/

namespace Pair

theorem take_running {q : Pair} (h : q.timer.isSome = true) (c : Combo) (clock : Nat) :
    q.take c clock = { q with target := if c = q.safe then none else some c } := by
  obtain ⟨n, hn⟩ := Option.isSome_iff_exists.mp h
  unfold take
  rw [hn]
  dsimp only
  split <;> rfl

theorem take_shown {q : Pair} (h : q.timer = none) {c : Combo} (hc : c = q.shown) (clock : Nat) : q.take c clock = q := by
  simp [take, h, hc]

/-- No dead time stands between the safe state and another combination. -/
theorem take_safe {q : Pair} (h : q.timer = none) {c : Combo} (hc : c ≠ q.shown) (safe : c = q.safe ∨ q.shown = q.safe)
    (clock : Nat) : q.take c clock = { q with shown := c } := by
  rcases safe with rfl | safe
  · simp [take, h, hc]
  · have hne : c ≠ q.safe := safe ▸ hc
    simp [take, h, hne, safe]

theorem take_at_once {q : Pair} (h : q.timer = none) {c : Combo} (hc : c ≠ q.shown) (active : c ≠ q.safe)
    (other : q.shown ≠ q.safe) (dead : q.dead = 0) (clock : Nat) : q.take c clock = { q with shown := c } := by
  simp [take, h, hc, active, other, dead]

theorem take_delayed {q : Pair} (h : q.timer = none) {c : Combo} (hc : c ≠ q.shown) (active : c ≠ q.safe)
    (other : q.shown ≠ q.safe) (dead : 0 < q.dead) (clock : Nat) :
    q.take c clock = { q with shown := q.safe, timer := some (clock + q.dead), target := some c } := by
  simp [take, h, hc, active, other, dead.ne']

end Pair

namespace State

theorem targetRequest_forbidden {s : State} {p : Fin 6} {q : Pair} (armed : s.pair p = some q) {c : Combo}
    (h : c = q.safe.complement) (source : Source) (tag : Nat) :
    s.targetRequest source tag p c = (s.setPair p (some q.toSafe)).offer (.forbidden source tag p c q.safe) := by
  simp [targetRequest, armed, h]

theorem targetRequest_taken {s : State} {p : Fin 6} {q : Pair} (armed : s.pair p = some q) {c : Combo}
    (h : c ≠ q.safe.complement) (source : Source) (tag : Nat) :
    s.targetRequest source tag p c = s.setPair p (some (q.take c s.clock)) := by
  simp [targetRequest, armed, h]

end State

open State in
/-- Settles O36: a target request is the forbidden one or is taken, and what taking it does is said case by case. -/
theorem pairTargets : Obligations.PairTargets := by
  intro s source tag p q c armed
  refine ⟨fun h => targetRequest_forbidden armed h source tag, fun h stopped => ⟨fun hc => ?_, fun hc safe => ?_,
    fun hc active other dead => ?_, fun hc active other dead => ?_⟩, fun h running => ?_⟩
  all_goals rw [targetRequest_taken armed h]
  · rw [Pair.take_shown stopped hc]
  · rw [Pair.take_safe stopped hc safe]
  · rw [Pair.take_at_once stopped hc active other dead]
  · rw [Pair.take_delayed stopped hc active other dead]
  · rw [Pair.take_running running]

/-! ### The timers -/

namespace State

theorem nextChop_off {d : Duty} (h : d ≠ .full) (clock : Nat) :
    nextChop d true clock = .chopped false (clock + (8 - d.onMs)) := by
  simp [nextChop, h]

theorem nextChop_on (d : Duty) (clock : Nat) : nextChop d false clock = .chopped true (clock + d.onMs) := by
  simp [nextChop]

theorem outlastsPullIn_iff (state : LineState) (n : Nat) :
    outlastsPullIn state n = true ↔ ¬ (state = .off ∨ ∃ ends, state = .pulsing ends ∧ ends ≤ n) := by
  cases state <;> simp [outlastsPullIn]

theorem pulseEnds_pulsing {s : State} {l : Fin 24} {n : Nat} (h : (s.line l).state = .pulsing n) :
    s.pulseEnds l = (s.clockTo n).modLine l Line.turnOff := by
  simp [pulseEnds, h]

theorem pullInEnds_full {s : State} {l : Fin 24} {n : Nat} (h : (s.line l).phase = some (.full n)) :
    s.pullInEnds l = if outlastsPullIn (s.line l).state n
      then (s.clockTo n).modLine l (fun x => { x with phase := some (.chopped true ((s.clockTo n).clock + x.cfg.duty.onMs)) })
      else s := by
  simp [pullInEnds, h]

theorem chopEnds_chopped {s : State} {l : Fin 24} {on : Bool} {n : Nat} (h : (s.line l).phase = some (.chopped on n)) :
    s.chopEnds l = (s.clockTo n).modLine l (fun x => { x with phase := some (nextChop x.cfg.duty on (s.clockTo n).clock) })
    := by
  simp [chopEnds, h]

theorem deadTimeEnds_running {s : State} {p : Fin 6} {q : Pair} {n : Nat} (armed : s.pair p = some q)
    (h : q.timer = some n) : s.deadTimeEnds p = (s.clockTo n).setPair p (some q.expire) := by
  simp [deadTimeEnds, armed, h]

theorem sawReady_recovering {s : State} {n : Nat} (h : s.out.saw = some n) :
    s.sawReady = { s.clockTo n with out := { s.out with saw := none } } := by
  simp [sawReady, h]

theorem clockTo_line (n : Nat) (l : Fin 24) (s : State) : (s.clockTo n).line l = s.line l := rfl

end State

open State in
/-- Settles O35: each timer that runs acts at its deadline, to which the clock comes. -/
theorem outputTimersExpire : Obligations.OutputTimersExpire := by
  refine ⟨fun s l n h => ?width, fun s l n h => ⟨fun lasts => ?pullIn, fun spent => ?spent⟩, fun s l n h duty => ?chopOff,
    fun s l n h => ?chopOn, fun s p q n armed h => ?dead, fun s n h => ?saw⟩
  case width => exact congrArg _ (pulseEnds_pulsing h)
  case pullIn =>
    have hlasts := (outlastsPullIn_iff _ n).mpr lasts
    exact congrArg _ ((pullInEnds_full h).trans (if_pos hlasts))
  case spent =>
    have hspent : ¬ outlastsPullIn (s.line l).state n = true := fun k => (outlastsPullIn_iff _ n).mp k spent
    exact congrArg _ ((pullInEnds_full h).trans (if_neg hspent))
  case chopOff =>
    refine congrArg _ ((chopEnds_chopped h).trans (modLine_congr ?_))
    rw [clockTo_line, nextChop_off duty]
    rfl
  case chopOn =>
    refine congrArg _ ((chopEnds_chopped h).trans (modLine_congr ?_))
    rw [nextChop_on]
    rfl
  case dead =>
    refine congrArg _ ((deadTimeEnds_running armed h).trans ?_)
    unfold Pair.expire
    cases q.target <;> rfl
  case saw => exact congrArg _ (sawReady_recovering h)

end Sys2Proof.Machine
end

section
/-! A request row at an empty request queue: what it does, from the answer that its kind has (R189, R190; log 2). -/

namespace Sys2Proof.Machine

open State

/-- The answer to a request, with what it does to the state and its reply, decides the row. -/
theorem exec_answered {c : Instr} {kind id : Byte} {p : List Byte} {s : State} {act : State → State} {reply : List Byte}
    (row : exec c s = .next (s.hostArrive ⟨kind, id, p⟩)) (request : isRequest ⟨kind, id, p⟩ = true)
    (empty : s.host.requests = [])
    (answer : (s.arrived ⟨kind, id, p⟩).answer ⟨kind, id, p⟩ = (act (s.arrived ⟨kind, id, p⟩), reply)) :
    exec c s = .next (s.taken kind id p act reply) := by
  rw [row, hostArrive_taken request empty answer]

theorem handle_refused {len : Nat} {checks : List (Bool × Status)} {act : State → State × List Byte} {p : List Byte}
    {s : State} {st : Status} (length : p.length = len) (fail : firstFail checks = some st) :
    handle len checks act p s = refuse st s := by
  simp [handle, length, fail]

section Checked

variable {c : Instr} {kind id : Byte} {p : List Byte} {s : State} {len : Nat} {checks : List (Bool × Status)}
  {does : State → State × List Byte} {take : List Byte → State → State × List Byte}

/-- A request that passes its checks is acted on. -/
theorem exec_handled {act : State → State} {reply : List Byte}
    (row : exec c s = .next (s.hostArrive ⟨kind, id, p⟩)) (request : isRequest ⟨kind, id, p⟩ = true)
    (answer : ∀ u : State, u.answer ⟨kind, id, p⟩ = take p u)
    (form : take p (s.arrived ⟨kind, id, p⟩) = handle len checks does p (s.arrived ⟨kind, id, p⟩))
    (empty : s.host.requests = []) (length : p.length = len) (pass : ∀ c ∈ checks, c.1 = false)
    (acted : does (s.arrived ⟨kind, id, p⟩) = (act (s.arrived ⟨kind, id, p⟩), reply)) :
    exec c s = .next (s.taken kind id p act reply) :=
  exec_answered row request empty (by rw [answer, form, handle_taken length pass, acted])

/-- A request that fails a check is replied the status, and nothing else. -/
theorem exec_refused {st : Status}
    (row : exec c s = .next (s.hostArrive ⟨kind, id, p⟩)) (request : isRequest ⟨kind, id, p⟩ = true)
    (answer : ∀ u : State, u.answer ⟨kind, id, p⟩ = take p u)
    (form : take p (s.arrived ⟨kind, id, p⟩) = handle len checks does p (s.arrived ⟨kind, id, p⟩))
    (empty : s.host.requests = []) (length : p.length = len) (fail : firstFail checks = some st) :
    exec c s = .next (s.taken kind id p (fun u => u) [st.code]) :=
  exec_answered row request empty (by rw [answer, form, handle_refused length fail]; rfl)

end Checked

/-! ### The answer of each kind (12.2) -/

namespace State

theorem answer_identify (id : Byte) (p : List Byte) (s : State) : s.answer ⟨0x01, id, p⟩ = s.takeIdentify p := rfl
theorem answer_setSection (id : Byte) (p : List Byte) (s : State) : s.answer ⟨0x02, id, p⟩ = s.takeSetSection p := rfl
theorem answer_setOutput (id : Byte) (p : List Byte) (s : State) : s.answer ⟨0x03, id, p⟩ = s.takeSetOutput p := rfl
theorem answer_armPair (id : Byte) (p : List Byte) (s : State) : s.answer ⟨0x04, id, p⟩ = s.takeArmPair p := rfl
theorem answer_setTrim (id : Byte) (p : List Byte) (s : State) : s.answer ⟨0x05, id, p⟩ = s.takeSetTrim p := rfl
theorem answer_setGrade (id : Byte) (p : List Byte) (s : State) : s.answer ⟨0x06, id, p⟩ = s.takeSetGrade p := rfl
theorem answer_setRules (id : Byte) (p : List Byte) (s : State) : s.answer ⟨0x07, id, p⟩ = s.takeSetRules p := rfl
theorem answer_setPrices (id : Byte) (p : List Byte) (s : State) : s.answer ⟨0x08, id, p⟩ = s.takeSetPrices p := rfl
theorem answer_commitBank (id : Byte) (p : List Byte) (s : State) : s.answer ⟨0x09, id, p⟩ = s.takeCommitBank p := rfl
theorem answer_setProfile (id : Byte) (p : List Byte) (s : State) : s.answer ⟨0x0A, id, p⟩ = s.takeSetProfile p := rfl
theorem answer_setPocket (id : Byte) (p : List Byte) (s : State) : s.answer ⟨0x0B, id, p⟩ = s.takeSetPocket p := rfl
theorem answer_setLine (id : Byte) (p : List Byte) (s : State) : s.answer ⟨0x0C, id, p⟩ = s.takeSetLine p := rfl
theorem answer_setLabel (id : Byte) (p : List Byte) (s : State) : s.answer ⟨0x0D, id, p⟩ = s.takeSetLabel p := rfl
theorem answer_setReports (id : Byte) (p : List Byte) (s : State) : s.answer ⟨0x0E, id, p⟩ = s.takeSetReports p := rfl
theorem answer_startLine (id : Byte) (p : List Byte) (s : State) : s.answer ⟨0x10, id, p⟩ = s.takeStartLine p := rfl
theorem answer_stopLine (id : Byte) (p : List Byte) (s : State) : s.answer ⟨0x11, id, p⟩ = s.takeStopLine p := rfl
theorem answer_haltLine (id : Byte) (p : List Byte) (s : State) : s.answer ⟨0x12, id, p⟩ = s.takeHaltLine p := rfl
theorem answer_clearHalt (id : Byte) (p : List Byte) (s : State) : s.answer ⟨0x13, id, p⟩ = s.takeClearHalt p := rfl
theorem answer_feedHold (id : Byte) (p : List Byte) (s : State) : s.answer ⟨0x14, id, p⟩ = s.takeFeedHold p := rfl
theorem answer_reset (id : Byte) (p : List Byte) (s : State) : s.answer ⟨0x15, id, p⟩ = s.takeReset p := rfl
theorem answer_testOutput (id : Byte) (p : List Byte) (s : State) : s.answer ⟨0x16, id, p⟩ = s.takeTestOutput p := rfl
theorem answer_closePocket (id : Byte) (p : List Byte) (s : State) : s.answer ⟨0x18, id, p⟩ = s.takeClosePocket p := rfl
theorem answer_holdPocket (id : Byte) (p : List Byte) (s : State) : s.answer ⟨0x19, id, p⟩ = s.takeHoldPocket p := rfl
theorem answer_releasePocket (id : Byte) (p : List Byte) (s : State) : s.answer ⟨0x1A, id, p⟩ = s.takeReleasePocket p := rfl
theorem answer_clearPocket (id : Byte) (p : List Byte) (s : State) : s.answer ⟨0x1B, id, p⟩ = s.takeClearPocket p := rfl
theorem answer_pauseLabels (id : Byte) (p : List Byte) (s : State) : s.answer ⟨0x20, id, p⟩ = s.takePauseLabels p := rfl
theorem answer_resumeLabels (id : Byte) (p : List Byte) (s : State) : s.answer ⟨0x21, id, p⟩ = s.takeResumeLabels p := rfl
theorem answer_skipLabel (id : Byte) (p : List Byte) (s : State) : s.answer ⟨0x22, id, p⟩ = s.takeSkipLabel p := rfl
theorem answer_reprintLabel (id : Byte) (p : List Byte) (s : State) : s.answer ⟨0x23, id, p⟩ = s.takeReprintLabel p := rfl
theorem answer_clearTrend (id : Byte) (p : List Byte) (s : State) : s.answer ⟨0x28, id, p⟩ = s.takeClearTrend p := rfl
theorem answer_getState (id : Byte) (p : List Byte) (s : State) : s.answer ⟨0x30, id, p⟩ = s.takeGetState p := rfl
theorem answer_getStrip (id : Byte) (p : List Byte) (s : State) : s.answer ⟨0x31, id, p⟩ = s.takeGetStrip p := rfl
theorem answer_getPocket (id : Byte) (p : List Byte) (s : State) : s.answer ⟨0x32, id, p⟩ = s.takeGetPocket p := rfl
theorem answer_getLabels (id : Byte) (p : List Byte) (s : State) : s.answer ⟨0x33, id, p⟩ = s.takeGetLabels p := rfl
theorem answer_getCounts (id : Byte) (p : List Byte) (s : State) : s.answer ⟨0x34, id, p⟩ = s.takeGetCounts p := rfl
theorem answer_clearCounts (id : Byte) (p : List Byte) (s : State) : s.answer ⟨0x35, id, p⟩ = s.takeClearCounts p := rfl
theorem answer_getList (id : Byte) (p : List Byte) (s : State) : s.answer ⟨0x36, id, p⟩ = s.takeGetList p := rfl

end State

/-! ### Bytes of a payload -/

@[simp] theorem u8_cons_zero (b : Byte) (p : List Byte) : u8 (b :: p) 0 = b.toNat := rfl

@[simp] theorem u8_cons_succ (b : Byte) (p : List Byte) (i : Nat) : u8 (b :: p) (i + 1) = u8 p i := rfl

@[simp] theorem flag_cons_zero (b : Byte) (p : List Byte) : flag (b :: p) 0 = decide (b.toNat = 1) := rfl

@[simp] theorem badFlag_cons_zero (b : Byte) (p : List Byte) : badFlag (b :: p) 0 = decide (1 < b.toNat) := rfl

theorem byte_eq_iff {b : Byte} (n : Nat) (h : n < 256) : b = BitVec.ofNat 8 n ↔ b.toNat = n := by
  rw [← BitVec.toNat_inj, BitVec.toNat_ofNat, Nat.mod_eq_of_lt h]

theorem toByte_toNat {n : Nat} (h : n < 256) : (toByte n).toNat = n := by
  rw [BitVec.toNat_ofNat, Nat.mod_eq_of_lt h]

/-! ### The set of feed-hold reasons (R181) -/

namespace State

theorem setReasons_quiet {s : State} {f : HoldReasons → HoldReasons}
    (h : (f s.run.reasons).any = s.run.reasons.any ∨ s.run.settings.feedLine = none) :
    s.setReasons f = { s with run := { s.run with reasons := f s.run.reasons } } := by
  unfold setReasons
  dsimp only
  split
  · rfl
  · simp [feedLine, h.resolve_left ‹_›]

theorem setReasons_asks {s : State} {f : HoldReasons → HoldReasons} {l : Fin 24}
    (h : (f s.run.reasons).any ≠ s.run.reasons.any) (feed : s.run.settings.feedLine = some l) :
    s.setReasons f = { s with run := { s.run with reasons := f s.run.reasons } }.feedRequest (f s.run.reasons).any l := by
  simp [setReasons, h, feedLine, feed]

theorem feedRequest_paired {s : State} {l : Fin 24} {p : Fin 6} (h : s.pairOf l = some p) (on : Bool) :
    s.feedRequest on l = s.offer (.lineInPair .runControl 0 l p) := by
  simp [feedRequest, h]

theorem feedRequest_free {s : State} {l : Fin 24} (h : s.pairOf l = none) (on : Bool) :
    s.feedRequest on l = if on then s.levelOn l else s.levelOff l := by
  simp [feedRequest, h, levelRequest]

@[simp] theorem setReasons_reasons (f : HoldReasons → HoldReasons) (s : State) :
    (s.setReasons f).run.reasons = f s.run.reasons := by
  obtain ⟨lines, saw, q, tx, w, hset, -, -⟩ := setReasons_changes f s
  rw [hset]

end State

/-- Settles O54: the change of the set is quiet or asks the feed-hold line; FEED_HOLD is such a change. -/
theorem feedHoldReasons : Obligations.FeedHoldReasons := by
  refine ⟨fun s f => ⟨setReasons_quiet, fun l h feed free => ?free, fun l p h feed paired => ?paired⟩,
    fun s id flag empty => ⟨fun h => ?taken, fun h0 h1 => ?refused⟩, fun s f => setReasons_reasons f s,
    fun s t found h => ?resets⟩
  case free => exact (setReasons_asks h feed).trans (feedRequest_free (by exact free) _)
  case paired => exact (setReasons_asks h feed).trans (feedRequest_paired (by exact paired) _)
  case taken =>
    refine exec_handled rfl rfl (answer_feedHold id _) rfl empty rfl ?_ ?_
    · rcases h with rfl | rfl <;> simp
    · rcases h with rfl | rfl <;> rfl
  case refused =>
    refine exec_refused rfl rfl (answer_feedHold id _) rfl empty rfl (st := .badValue) ?_
    have hbad : 1 < flag.toNat := by
      have hne0 : flag.toNat ≠ 0 := mt (byte_eq_iff 0 (by decide)).mpr h0
      have hne1 : flag.toNat ≠ 1 := mt (byte_eq_iff 1 (by decide)).mpr h1
      omega
    simp [firstFail, hbad]
  case resets =>
    rcases h with h | h
    · rw [exec_powerOnReset, Host.Outcome.next.injEq] at h
      exact h ▸ rfl
    · rw [exec_softReset, Host.Outcome.next.injEq] at h
      rw [← h, softReset_block (block := State.run) s fun _ _ => rfl]
      rfl

end Sys2Proof.Machine
end

section
/-! TEST_OUTPUT (R129), SET_OUTPUT and ARM_PAIR (R117, R122, R123). -/

namespace Sys2Proof.Machine

open State

/-! ### Numbers in a byte -/

@[simp] theorem fin24_mod_byte (l : Fin 24) : l.val % 256 = l.val := by omega

@[simp] theorem fin12_mod_byte (p : Fin 12) : p.val % 256 = p.val := by omega

@[simp] theorem fin6_mod_byte (p : Fin 6) : p.val % 256 = p.val := by omega

@[simp] theorem fin4_mod_byte (v : Fin 4) : v.val % 256 = v.val := by omega

@[simp] theorem flagByte_eq_one (on : Bool) : (flagByte on).toNat = 1 ↔ on = true := by cases on <;> decide

@[simp] theorem not_one_lt_flagByte (on : Bool) : ¬ 1 < (flagByte on).toNat := by cases on <;> decide

@[simp] theorem flag_cons_succ (b : Byte) (p : List Byte) (i : Nat) : flag (b :: p) (i + 1) = flag p i := rfl

@[simp] theorem badFlag_cons_succ (b : Byte) (p : List Byte) (i : Nat) : badFlag (b :: p) (i + 1) = badFlag p i := rfl

theorem fin_of_u8 {n : Nat} [NeZero n] {p : List Byte} {i : Nat} {k : Fin n} (h : u8 p i = k.val) :
    Fin.ofNat n (u8 p i) = k := by
  rw [h]
  exact Fin.ofNat_val_eq_self k

/-! ### TEST_OUTPUT -/

namespace State

theorem answer_testLevel (id : Byte) (p : List Byte) (s : State) :
    s.answer ⟨0x16, id, 0 :: p⟩ = s.takeTestLevel (0 :: p) := rfl

theorem answer_testPulse (id : Byte) (p : List Byte) (s : State) :
    s.answer ⟨0x16, id, 1 :: p⟩ = s.takeTestPulse (1 :: p) := rfl

theorem answer_testTarget (id : Byte) (p : List Byte) (s : State) :
    s.answer ⟨0x16, id, 2 :: p⟩ = s.takeTestTarget (2 :: p) := rfl

theorem comboOf_fin (v : Fin 4) : comboOf v.val = ⟨decide (2 ≤ v.val), decide (v.val % 2 = 1)⟩ := by
  revert v
  decide

theorem modLine_pulseFrom (l : Fin 24) (clock : Nat) (s : State) :
    s.modLine l (fun x => x.pulseFrom clock) = s.modLine l (fun x => { x with
      state := .pulsing (clock + (s.line l).cfg.width)
      phase := if (s.line l).state ≠ .off then (s.line l).phase
        else if (s.line l).cfg.holdDuty then some (.full (clock + (s.line l).cfg.pullIn)) else none }) :=
  modLine_congr (by rw [← Line.onPhase_eq]; rfl)

theorem modLine_holdFrom (l : Fin 24) (clock : Nat) (s : State) :
    s.modLine l (fun x => x.holdFrom clock) = s.modLine l (fun x => { x with
      state := .held
      phase := if (s.line l).state ≠ .off then (s.line l).phase
        else if (s.line l).cfg.holdDuty then some (.full (clock + (s.line l).cfg.pullIn)) else none }) :=
  modLine_congr (by rw [← Line.onPhase_eq]; rfl)

/-- A line that takes test requests. -/
theorem untestable_eq_false {s : State} {l : Fin 24} (free : s.pairOf l = none) (role : s.run.settings.feedLine ≠ some l) :
    s.untestable l = false := by
  simp [untestable, free, role]

end State

section Form

variable {s : State} {id : Byte} {l : Fin 24} {act : State → State}

/-- The level form for a line that takes test requests, in CONFIG. -/
theorem exec_testLevel (empty : s.host.requests = []) (config : s.run.state = .config) (free : s.pairOf l = none)
    (role : s.run.settings.feedLine ≠ some l) (on : Bool)
    (act_eq : ∀ f : Frame, (s.arrived f).levelRequest on l = act (s.arrived f)) :
    exec (.testOutputLevel id [toByte l.val, flagByte on]) s
      = .next (s.taken 0x16 id [0, toByte l.val, flagByte on] act [0]) := by
  have htest : ∀ f : Frame, (s.arrived f).untestable l = false := fun f =>
    untestable_eq_false (by rwa [arrived_pairOf]) role
  refine exec_handled rfl rfl (answer_testLevel id _) rfl empty rfl ?pass ?acted
  case pass =>
    simp [testChecks, outside, config, htest]
  case acted =>
    rw [← act_eq]
    simp [okay, Status.code]

/-- The pulse form for a line that takes test requests, in CONFIG. -/
theorem exec_testPulse (empty : s.host.requests = []) (config : s.run.state = .config) (free : s.pairOf l = none)
    (role : s.run.settings.feedLine ≠ some l)
    (act_eq : ∀ f : Frame, (s.arrived f).pulseRequest l = act (s.arrived f)) :
    exec (.testOutputPulse id [toByte l.val, 0]) s = .next (s.taken 0x16 id [1, toByte l.val, 0] act [0]) := by
  have htest : ∀ f : Frame, (s.arrived f).untestable l = false := fun f =>
    untestable_eq_false (by rwa [arrived_pairOf]) role
  refine exec_handled rfl rfl (answer_testPulse id _) rfl empty rfl ?pass ?acted
  case pass => simp [testChecks, outside, config, htest]
  case acted =>
    rw [← act_eq]
    simp [okay, Status.code]

end Form

/-- Settles O57: each form reaches its request on the line or the pair, and the line's state decides what that does. -/
theorem testOutput : Obligations.TestOutput := by
  intro s id empty config
  refine ⟨fun l free role => ?line, fun p q v armed => ?target⟩
  case line =>
    refine ⟨exec_testLevel empty config free role false fun f => rfl, fun held => ⟨?_, ?_⟩, fun ne level => ?_,
      fun ne pulse => ?_, fun ne => ?_⟩
    · exact exec_testLevel empty config free role true fun f => levelOn_held (s := s.arrived f) held
    · exact exec_testPulse empty config free role fun f => pulseRequest_held (s := s.arrived f) held
    · refine exec_testLevel empty config free role true fun f => ?_
      exact (levelOn_level (s := s.arrived f) ne level).trans (modLine_holdFrom l _ _)
    · refine exec_testLevel empty config free role true fun f => ?_
      rw [levelRequest, if_pos rfl, levelOn_pulse (s := s.arrived f) ne pulse, beginPulse_eq, modLine_pulseFrom]
      rfl
    · refine exec_testPulse empty config free role fun f => ?_
      rw [pulseRequest_of_ne (s := s.arrived f) ne, beginPulse_eq, modLine_pulseFrom]
      rfl
  case target =>
    refine exec_handled rfl rfl (answer_testTarget id _) rfl empty rfl ?pass ?acted
    case pass =>
      have hv : ¬ 3 < v.val := by omega
      simp [testChecks, outside, config, armed, hv]
    case acted => simp [okay, Status.code, comboOf_fin]

end Sys2Proof.Machine
end

section
/-! The settings of lines, pairs and sections: SET_OUTPUT, ARM_PAIR and SET_SECTION (R30, R103, R104, R117, R122, R123). -/

namespace Sys2Proof.Machine

open State

/-! ### Ranges (R190) -/

theorem outside_eq_clamp {lo hi : Nat} (h : lo ≤ hi) (v : Nat) : outside lo hi v = decide (clamp lo hi v ≠ v) := by
  rw [Bool.eq_iff_iff, decide_eq_true_iff, outside, Bool.or_eq_true, decide_eq_true_iff, decide_eq_true_iff, clamp]
  omega

theorem outside_zero (hi v : Nat) : outside 0 hi v = decide (hi < v) := by
  simp [outside]

theorem clamp_zero (hi v : Nat) : clamp 0 hi v = min hi v := by
  simp [clamp]

theorem outside_eq_false {lo hi v : Nat} (h : lo ≤ v ∧ v ≤ hi) : outside lo hi v = false := by
  simp only [outside, Bool.or_eq_false_iff, decide_eq_false_iff_not]
  omega

/-! ### SET_OUTPUT -/

namespace State

theorem modLine_modLine (l : Fin 24) (f g : Line → Line) (s : State) :
    (s.modLine l f).modLine l g = s.modLine l (fun x => g (f x)) := by
  simp [modLine]

theorem modLine_pairOf (l m : Fin 24) (f : Line → Line) (s : State) : (s.modLine l f).pairOf m = s.pairOf m :=
  pairOf_of_pairs m rfl

/-- The feed-hold line keeps its role and is asked on again. -/
theorem putOutput_asked {s : State} {p : List Byte} {l : Fin 24} (number : Fin.ofNat 24 (u8 p 0) = l)
    (free : s.pairOf l = none) (feed : s.run.settings.feedLine = some l) (stands : s.run.reasons.any = true)
    (level : (lineCfg p).pulse = false) :
    s.putOutput p = s.modLine l (fun _ =>
      { cfg := lineCfg p
        state := .held
        phase := if (lineCfg p).holdDuty then some (.full (s.clock + (lineCfg p).pullIn)) else none }) := by
  have hoff : ((s.modLine l (fun x => { x.turnOff with cfg := lineCfg p })).line l)
      = { cfg := lineCfg p, state := .off, phase := none } := line_modLine l _ s
  have hput : s.putOutput p = (s.modLine l (fun x => { x.turnOff with cfg := lineCfg p })).feedRequest true l := by
    simp only [putOutput, number, feed, stands, and_self, if_true]
  rw [hput, feedRequest_free (by rwa [modLine_pairOf]), if_pos rfl, levelOn_level (by simp [hoff]) (by rw [hoff]; exact level),
    modLine_holdFrom, hoff, modLine_modLine]
  rfl

theorem putOutput_quiet {s : State} {p : List Byte} {l : Fin 24} (number : Fin.ofNat 24 (u8 p 0) = l)
    (h : s.run.settings.feedLine ≠ some l ∨ s.run.reasons.any = false) :
    s.putOutput p = s.modLine l (fun _ => { cfg := lineCfg p, state := .off, phase := none }) := by
  have hquiet : ¬ (s.run.settings.feedLine = some l ∧ s.run.reasons.any = true) := by
    rintro ⟨hfeed, hany⟩
    simp [hfeed, hany] at h
  simp only [putOutput, number, if_neg hquiet]
  rfl

/-! ### ARM_PAIR -/

theorem putPair_eq {s : State} {p : List Byte} {k : Fin 6} {l m : Fin 24} (pair : Fin.ofNat 6 (u8 p 0) = k)
    (first : Fin.ofNat 24 (u8 p 1) = l) (second : Fin.ofNat 24 (u8 p 2) = m) :
    s.putPair p = ((s.setPair k (some
      { first := l
        second := m
        dead := min 250 (u8 p 3)
        safe := ⟨decide ((s.line l).state ≠ .off), decide ((s.line m).state ≠ .off)⟩
        shown := ⟨decide ((s.line l).state ≠ .off), decide ((s.line m).state ≠ .off)⟩
        timer := none
        target := none })).modLine l Line.turnOff).modLine m Line.turnOff := by
  simp only [putPair, armed, pair, first, second, clamp_zero, Line.isOn_eq]

end State

/-- Settles O48: the line driven off is asked on again when it holds the feed-hold role; the pair takes over two lines. -/
theorem outputConfiguration : Obligations.OutputConfiguration := by
  refine ⟨fun s id p l empty config length number free mode duty form => ?output,
    fun s id p k l m empty config length pair first second none' ne freeL freeM dutyL dutyM => ?arm⟩
  case output =>
    have hl : Fin.ofNat 24 (u8 p 0) = l := fin_of_u8 number
    have hpass : ∀ c ∈ [(decide ((s.arrived ⟨0x03, id, p⟩).run.state ≠ .config), Status.wrongState),
        (decide (24 ≤ u8 p 0), .noSuch), (((s.arrived ⟨0x03, id, p⟩).pairOf (Fin.ofNat 24 (u8 p 0))).isSome, .wrongState),
        (outside 0 1 (u8 p 1), .badValue), (badFlag p 4, .badValue), (outside 0 3 (u8 p 7), .badValue)], c.1 = false := by
      simp [number, config, free, outside_zero, badFlag, mode, duty, form]
    have hclamped : (outside 5 1000 (u16 p 2) || outside 5 500 (u16 p 5))
        = (decide ((lineCfg p).width ≠ u16 p 2) || decide ((lineCfg p).pullIn ≠ u16 p 5)) := by
      rw [outside_eq_clamp (by decide), outside_eq_clamp (by decide)]
      rfl
    refine ⟨fun h => ?quiet, fun feed stands level => ?asked⟩
    case quiet =>
      refine exec_handled rfl rfl (answer_setOutput id _) rfl empty length hpass (Prod.ext ?_ ?_)
      · exact putOutput_quiet (s := s.arrived ⟨0x03, id, p⟩) hl h
      · exact congrArg (fun b => [(0 : Byte), flagByte b]) hclamped
    case asked =>
      have hlevel : (lineCfg p).pulse = false := by simp [lineCfg, flag, level]
      refine exec_handled rfl rfl (answer_setOutput id _) rfl empty length hpass (Prod.ext ?_ ?_)
      · refine (putOutput_asked (s := s.arrived ⟨0x03, id, p⟩) hl free feed stands hlevel).trans ?_
        simp only [lineCfg, flag, decide_eq_true_eq]
        rfl
      · exact congrArg (fun b => [(0 : Byte), flagByte b]) hclamped
  case arm =>
    have hk : Fin.ofNat 6 (u8 p 0) = k := fin_of_u8 pair
    have hl : Fin.ofNat 24 (u8 p 1) = l := fin_of_u8 first
    have hm : Fin.ofNat 24 (u8 p 2) = m := fin_of_u8 second
    have hne : l.val ≠ m.val := fun h => ne (Fin.ext h)
    refine exec_handled rfl rfl (answer_armPair id _) rfl empty length ?pass (Prod.ext ?acted ?reply)
    case pass => simp [pair, first, second, config, none', hne, unbindable, freeL, freeM, dutyL, dutyM]
    case acted => exact putPair_eq (s := s.arrived ⟨0x04, id, p⟩) hk hl hm
    case reply =>
      show [(0 : Byte), flagByte (outside 0 250 (u8 p 3))] = _
      rw [outside_zero]

/-! ### SET_SECTION -/

theorem SectionPayload.passes {p : List Byte} (h : SectionPayload p) {s : State} (config : s.run.state = .config) :
    ∀ c ∈ sectionChecks p s ++ sawChecks p ++ headChecks p, c.1 = false := by
  obtain ⟨-, hsec, hsense, hscale, hdist, hcommit, hsort, hsaw, hpairs, hheads⟩ := h
  simp [sectionChecks, sawChecks, headChecks, outside, badOpt, sectionWindow, config]
  omega

theorem sectionClamped_eq (p : List Byte) :
    sectionClamped p = (decide (15 < u8 p 5) || decide (4095 < u16 p 6) || decide (clamp 5 200 (u16 p 10) ≠ u16 p 10)
      || (decide (u8 p 0 = 2) && decide (clamp 20 2000 (u16 p 19) ≠ u16 p 19))
      || (decide (u8 p 0 = 3) && decide (200 < u8 p 35))) := by
  simp only [sectionClamped, outside_zero, outside_eq_clamp (show 5 ≤ 200 by decide),
    outside_eq_clamp (show 20 ≤ 2000 by decide)]

/-- Settles O47: a payload within its ranges passes every check, and the settings are its fields. -/
theorem setSection : Obligations.SetSection := by
  intro s id p empty config payload
  refine exec_handled rfl rfl (answer_setSection id _) rfl empty payload.length (payload.passes config) (Prod.ext ?_ ?_)
  · simp only [okaySet, putSection, sectionCfg, sawSettings, headSettings, sectionWindow, clamp_zero]
    rfl
  · exact congrArg (fun b => [(0 : Byte), flagByte b]) (sectionClamped_eq p)

end Sys2Proof.Machine
end

section
/-! The shadow bank: SET_TRIM, SET_GRADE, SET_RULES, SET_PRICES and COMMIT_BANK (R69 to R74). -/

namespace Sys2Proof.Machine

open State

/-! ### Fields -/

theorem badChars_eq_false {p : List Byte} {start n : Nat}
    (h : ∀ i : Fin n, 0x20 ≤ u8 p (start + i.val) ∧ u8 p (start + i.val) ≤ 0x7E) : badChars p start n = false := by
  have hall : (chars p start n).toList.all isChar = true := by
    rw [List.all_eq_true]
    intro b hb
    obtain ⟨i, hi, rfl⟩ := Vector.mem_iff_getElem.mp (Vector.mem_toList_iff.mp hb)
    have hrange := h ⟨i, hi⟩
    simpa [chars, isChar, u8] using hrange
  simp [badChars, hall]

namespace State

theorem thresholds_get (p : List Byte) (i : Fin 7) : (thresholds p)[i] = u16 p (4 + 2 * i.val) := by
  simp [thresholds]

theorem badThresholds_eq_false {p : List Byte} (top : ∀ i : Fin 7, u16 p (4 + 2 * i.val) ≤ 3001)
    (rising : ∀ i : Fin 6, u16 p (4 + 2 * i.val) ≤ u16 p (6 + 2 * i.val)) : badThresholds (thresholds p) = false := by
  rw [badThresholds, List.any_eq_false]
  intro i _
  have hprev : 0 < i.val → (thresholds p).toList.getD (i.val - 1) 0 ≤ u16 p (4 + 2 * i.val) := by
    intro hi
    obtain ⟨k, hk⟩ : ∃ k, i.val = k + 1 := ⟨i.val - 1, by omega⟩
    have hrise := rising ⟨k, by omega⟩
    have hlt : k < (thresholds p).toList.length := by simp; omega
    have hnext : 4 + 2 * (k + 1) = 6 + 2 * k := by omega
    rw [hk, Nat.add_sub_cancel, List.getD_eq_getElem _ _ hlt, hnext]
    simpa [thresholds] using hrise
  rw [thresholds_get]
  simp only [Bool.or_eq_true, Bool.and_eq_true, decide_eq_true_eq, not_or, not_and, Nat.not_lt]
  exact ⟨top i, hprev⟩

/-! ### The shadow bank takes writes (R73) -/

theorem shadowChecks_pass {s : State} (pending : s.solver.commitPending = false)
    (unused : s.unsolved s.solver.active.other = 0) : ∀ c ∈ s.shadowChecks, c.1 = false := by
  simp [shadowChecks, shadow, pending, unused]

/-- A write to the shadow bank whose own checks pass. -/
theorem exec_shadow {c : Instr} {kind id : Byte} {p : List Byte} {s : State} {len : Nat} {own : List (Bool × Status)}
    {take : List Byte → State → State × List Byte} {f : BankTable → BankTable}
    (row : exec c s = .next (s.hostArrive ⟨kind, id, p⟩)) (request : isRequest ⟨kind, id, p⟩ = true)
    (answer : ∀ u : State, u.answer ⟨kind, id, p⟩ = take p u)
    (form : take p (s.arrived ⟨kind, id, p⟩) = handle len (own ++ (s.arrived ⟨kind, id, p⟩).shadowChecks)
      (fun u => okaySet false (u.modShadow f)) p (s.arrived ⟨kind, id, p⟩))
    (empty : s.host.requests = []) (length : p.length = len) (pending : s.solver.commitPending = false)
    (unused : s.unsolved s.solver.active.other = 0) (pass : ∀ c ∈ own, c.1 = false) :
    exec c s = .next (s.taken kind id p (fun u => u.setTable s.solver.active.other (f (u.table s.solver.active.other)))
      [0, 0]) := by
  refine exec_handled row request answer form empty length (fun c hc => ?_) rfl
  rcases List.mem_append.mp hc with hc | hc
  · exact pass c hc
  · exact shadowChecks_pass (s := s.arrived ⟨kind, id, p⟩) pending (by simpa using unused) c hc

/-! ### SET_RULES -/

theorem faceSetOf_eq (n : Nat) : faceSetOf n = if n = 1 then .top else if n = 2 then .bottom else .both := by
  unfold faceSetOf
  split <;> simp_all

theorem ruleOffset (k n : Nat) : 2 + 6 * k + n = 2 + n + 6 * k := by omega

theorem ruleAt_eq (p : List Byte) (k : Nat) : ruleAt p (2 + 6 * k) =
    { used := decide (u8 p (2 + 6 * k) = 1)
      grade := Fin.ofNat 8 (u8 p (3 + 6 * k))
      cls := BitVec.ofNat 4 (u8 p (4 + 6 * k) / 16)
      mask := BitVec.ofNat 4 (u8 p (4 + 6 * k) % 16)
      faces := if u8 p (5 + 6 * k) = 1 then .top else if u8 p (5 + 6 * k) = 2 then .bottom else .both
      maxSeverity := BitVec.ofNat 4 (u8 p (6 + 6 * k))
      maxCount := u8 p (7 + 6 * k) } := by
  have hmask : BitVec.ofNat 4 (u8 p (4 + 6 * k) % 16) = BitVec.ofNat 4 (u8 p (4 + 6 * k)) := by
    apply BitVec.eq_of_toNat_eq
    simp
  simp only [ruleAt, flag, faceSetOf_eq, ruleOffset, Nat.reduceAdd, hmask]

theorem badRule_eq_false {p : List Byte} {k : Nat}
    (h : u8 p (2 + 6 * k) ≤ 1 ∧ u8 p (3 + 6 * k) ≤ 7 ∧ 1 ≤ u8 p (5 + 6 * k) ∧ u8 p (5 + 6 * k) ≤ 3
      ∧ u8 p (6 + 6 * k) ≤ 15 ∧ 1 ≤ u8 p (7 + 6 * k) ∧ u8 p (7 + 6 * k) ≤ 16) : badRule p (2 + 6 * k) = false := by
  simp only [badRule, badFlag, outside, ruleOffset, Bool.or_eq_false_iff, decide_eq_false_iff_not, Nat.reduceAdd]
  omega

/-! ### COMMIT_BANK -/

theorem definesGrade_iff {s : State} {bank : Bank} :
    s.definesGrade bank = true ↔ ∃ g : Fin 8, ((s.table bank).grades[g]).defined = true := by
  rw [definesGrade, List.any_eq_true]
  constructor
  · rintro ⟨d, hd, hdef⟩
    obtain ⟨i, hi, rfl⟩ := Vector.mem_iff_getElem.mp (Vector.mem_toList_iff.mp hd)
    exact ⟨⟨i, hi⟩, hdef⟩
  · rintro ⟨g, hdef⟩
    exact ⟨_, Vector.mem_toList_iff.mpr (Vector.getElem_mem g.isLt), hdef⟩

theorem running_iff {s : State} : s.running = true ↔ s.run.state = .run ∨ s.run.state = .drain := by
  simp [running]

theorem not_running {s : State} (h : s.run.state = .config ∨ s.run.state = .halt) : s.running = false := by
  rcases h with h | h <;> simp [running, h]

/-- COMMIT_BANK has no check but its length. -/
theorem exec_commitBank {s : State} {id : Byte} {act : State → State} {reply : List Byte} (empty : s.host.requests = [])
    (acted : (if (s.arrived ⟨0x09, id, []⟩).running then
        (if (s.arrived ⟨0x09, id, []⟩).solver.commitPending then okay (s.arrived ⟨0x09, id, []⟩)
        else if (s.arrived ⟨0x09, id, []⟩).definesGrade (s.arrived ⟨0x09, id, []⟩).shadow then
          okay ((s.arrived ⟨0x09, id, []⟩).modSolver (fun v => { v with commitPending := true }))
        else incomplete 1 0 (s.arrived ⟨0x09, id, []⟩))
      else okay (s.arrived ⟨0x09, id, []⟩).swapBanks) = (act (s.arrived ⟨0x09, id, []⟩), reply)) :
    exec (.commitBank id []) s = .next (s.taken 0x09 id [] act reply) :=
  exec_handled rfl rfl (answer_commitBank id _) rfl empty rfl (by simp) acted

end State

/-- Settles O49: each write passes its own checks and the two of the shadow bank; COMMIT_BANK goes by the run state. -/
theorem bankRequests : Obligations.BankRequests := by
  refine ⟨⟨fun s id p empty pending unused => ⟨?trim, ?grade, ?rules⟩,
    fun s id p empty length => ⟨?noGrade, ?prices⟩⟩, fun s id empty => ⟨?swap, fun hrun => ?commit⟩⟩
  case trim =>
    intro length tmin step step' tend tend' top rising
    refine exec_shadow rfl rfl (answer_setTrim id _) rfl empty length pending unused ?_
    simp [outside, tmin, step, step', tend, tend', badThresholds_eq_false top rising]
  case grade =>
    intro g length number defined name lmin lmin'
    have hg : Fin.ofNat 8 (u8 p 0) = g := fin_of_u8 number
    have hname : badChars p 2 8 = false := badChars_eq_false name
    refine (exec_shadow rfl rfl (answer_setGrade id _) rfl empty length pending unused ?_).trans ?_
    · simp [outside, badFlag, number, defined, hname, lmin, lmin']
    · simp only [hg]
      rfl
  case rules =>
    intro length start last some' entries
    refine (exec_shadow rfl rfl (answer_setRules id _) rfl empty length pending unused ?_).trans ?_
    · have hentries : ((List.range (u8 p 1)).any fun k => badRule p (2 + 6 * k)) = false := by
        rw [List.any_eq_false]
        exact fun k hk => by rw [badRule_eq_false (entries k (List.mem_range.mp hk))]; simp
      have hstart : ¬ 48 ≤ u8 p 0 := by omega
      have hlast : ¬ 48 < u8 p 0 + u8 p 1 := by omega
      have hsome : u8 p 1 ≠ 0 := by omega
      simp [hentries, hstart, hlast, hsome]
    · simp only [putRules, ruleAt_eq]
  case noGrade =>
    intro number
    refine exec_refused rfl rfl (answer_setPrices id _) rfl empty length (st := .noSuch) ?_
    have h8 : 8 ≤ u8 p 0 := number
    simp [firstFail, h8]
  case prices =>
    intro g number pending unused
    have hg : Fin.ofNat 8 (u8 p 0) = g := fin_of_u8 number
    refine (exec_shadow rfl rfl (answer_setPrices id _) rfl empty length pending unused ?_).trans ?_
    · simp [number]
    · simp only [hg]
  case swap =>
    intro hstop
    refine exec_commitBank empty ?_
    rw [if_neg (by rw [arrived_running, not_running hstop]; simp)]
    rfl
  case commit =>
    have hrunning : ∀ f : Frame, (s.arrived f).running = true := fun f => by rw [arrived_running, running_iff.mpr hrun]
    have hgrade : ∀ f : Frame, (s.arrived f).definesGrade (s.arrived f).shadow = true
        ↔ ∃ g : Fin 8, ((s.table s.solver.active.other).grades[g]).defined = true := fun f => definesGrade_iff
    refine ⟨fun hpending defines => ?_, fun hpending undefined => ?_, fun hpending => ?_⟩
    all_goals refine exec_commitBank empty ?_
    all_goals rw [if_pos (hrunning _), arrived_solver, hpending]
    · rw [if_neg (by simp), if_pos ((hgrade _).mpr defines)]
      rfl
    · rw [if_neg (by simp), if_neg (mt (hgrade _).mp undefined)]
      rfl
    · rfl

end Sys2Proof.Machine
end

section
/-! SET_PROFILE and CLEAR_TREND (R91, R96 to R100). -/

namespace Sys2Proof.Machine

open State

/-! ### The feed-hold reason "profile" follows the trend state (R98) -/

namespace State

theorem setReasons_self {s : State} {f : HoldReasons → HoldReasons} (h : f s.run.reasons = s.run.reasons) :
    s.setReasons f = s := by
  rw [setReasons_quiet (.inl (by rw [h])), h]

theorem syncProfileHold_eq {s : State} {st : TrendState} (h : s.check.state = st) :
    s.syncProfileHold = s.setReasons (fun r => { r with profile := decide (st = .limit) && s.check.hold }) := by
  rw [syncProfileHold, h]

theorem moveTrend_same {s : State} {new : TrendState} (h : new = s.check.state) (tag : Nat) : s.moveTrend new tag = s :=
  if_pos h

theorem moveTrend_changed {s : State} {new : TrendState} (h : new ≠ s.check.state) (tag : Nat) :
    s.moveTrend new tag = (({ s with check := { s.check with state := new } } : State).offer
      (.profile new s.check.state (s.check.deciding new) s.check.trends tag)).setReasons
        (fun r => { r with profile := decide (new = .limit) && s.check.hold }) := by
  rw [moveTrend, if_neg h, syncProfileHold_eq (st := new) (by simp [modCheck])]
  simp [modCheck]

end State

/-! ### The settings of SET_PROFILE -/

theorem dimCfg_eq (p : List Byte) (i : Fin 4) : dimCfg p i =
    { nominal := u16 p (3 + 8 * i.val)
      tolerance := min 2000 (u16 p (5 + 8 * i.val))
      warn := min 2000 (u16 p (7 + 8 * i.val))
      limit := max (min 2000 (u16 p (7 + 8 * i.val))) (min 2000 (u16 p (9 + 8 * i.val))) } := by
  have hoff : ∀ n, 3 + 8 * i.val + n = 3 + n + 8 * i.val := fun n => by omega
  simp only [dimCfg, dimAt, clamp_zero, hoff, Nat.reduceAdd]

theorem dimClamped_iff (p : List Byte) (i : Fin 4) : dimClamped p i = true ↔ (dimCfg p i).tolerance ≠ u16 p (5 + 8 * i.val)
    ∨ (dimCfg p i).warn ≠ u16 p (7 + 8 * i.val) ∨ (dimCfg p i).limit ≠ u16 p (9 + 8 * i.val) := by
  have hoff : ∀ n, 3 + 8 * i.val + n = 3 + n + 8 * i.val := fun n => by omega
  simp only [dimClamped, dimAt, hoff, Nat.reduceAdd, Bool.or_eq_true, decide_eq_true_eq, or_assoc]

theorem any_dimClamped (p : List Byte) : (List.finRange 4).any (dimClamped p)
    = decide (∃ i : Fin 4, (dimCfg p i).tolerance ≠ u16 p (5 + 8 * i.val)
      ∨ (dimCfg p i).warn ≠ u16 p (7 + 8 * i.val) ∨ (dimCfg p i).limit ≠ u16 p (9 + 8 * i.val)) := by
  rw [Bool.eq_iff_iff, decide_eq_true_iff, List.any_eq_true]
  simp only [List.mem_finRange, true_and, dimClamped_iff]

namespace State

/-- The check with the settings of a SET_PROFILE payload (R91). -/
def profileSettings (p : List Byte) (c : ProfileCheck) : ProfileCheck :=
  { c with
    enable := flag p 0
    hold := flag p 1
    shift := clamp 1 8 (u8 p 2)
    dims := Vector.ofFn (dimCfg p) }

/-- The reason follows the hold flag, the state as it was. -/
def profileHeld (p : List Byte) (s : State) : State :=
  ({ s with check := profileSettings p s.check } : State).setReasons
    (fun r => { r with profile := decide (s.check.state = .limit) && flag p 1 })

theorem putProfile_eq (p : List Byte) (s : State) : s.putProfile p
    = (s.profileHeld p).moveTrend (profileSettings p s.check).nextState 0 := by
  have hcheck : (s.profileHeld p).check = profileSettings p s.check := setReasons_check ..
  rw [← hcheck]
  rfl

theorem exec_setProfile {s : State} {id : Byte} {p : List Byte} {act : State → State} (empty : s.host.requests = [])
    (length : p.length = 35) (on : u8 p 0 ≤ 1) (hold : u8 p 1 ≤ 1) (nominals : ∀ i : Fin 4, u16 p (3 + 8 * i.val) ≤ 20000)
    (acted : ((s.arrived ⟨0x0A, id, p⟩).putProfile p) = act (s.arrived ⟨0x0A, id, p⟩)) :
    exec (.setProfile id p) s = .next (s.taken 0x0A id p act
      [0, flagByte (decide (clamp 1 8 (u8 p 2) ≠ u8 p 2) || decide (∃ i : Fin 4, (dimCfg p i).tolerance ≠ u16 p (5 + 8 * i.val)
      ∨ (dimCfg p i).warn ≠ u16 p (7 + 8 * i.val) ∨ (dimCfg p i).limit ≠ u16 p (9 + 8 * i.val)))]) := by
  refine exec_handled rfl rfl (answer_setProfile id _) rfl empty length ?pass (Prod.ext acted ?reply)
  case pass =>
    have hdims : ∀ i : Fin 4, outside 0 20000 (u16 p (dimAt i)) = false := fun i => outside_eq_false ⟨Nat.zero_le _, nominals i⟩
    simp [badFlag, on, hold, hdims]
  case reply => rw [← any_dimClamped, ← outside_eq_clamp (by decide)]; rfl

/-- CLEAR_TREND has no check but its length. -/
theorem exec_clearTrend {s : State} {id : Byte} {act : State → State} (empty : s.host.requests = [])
    (acted : (s.arrived ⟨0x28, id, []⟩).clearTrends = act (s.arrived ⟨0x28, id, []⟩)) :
    exec (.clearTrend id []) s = .next (s.taken 0x28 id [] act [0]) :=
  exec_handled rfl rfl (answer_clearTrend id _) rfl empty rfl (by simp) (Prod.ext acted rfl)

/-- The trends zeroed and the state NORMAL (R99). -/
def trendsZeroed (s : State) : State :=
  { s with check := { s.check with
    trends := #v[0, 0, 0, 0]
    state := .normal } }

theorem clearTrends_normal {s : State} (h : s.check.state = .normal) :
    s.clearTrends = s.trendsZeroed.setReasons (fun r => { r with profile := false }) := by
  have hzero : s.modCheck (fun c => { c with trends := Vector.replicate 4 0 }) = s.trendsZeroed := by
    simp only [modCheck, trendsZeroed, ← h]
    rfl
  rw [clearTrends, hzero, moveTrend_same (s := s.trendsZeroed) (new := .normal) rfl, syncProfileHold_eq rfl]
  rfl

theorem clearTrends_changed {s : State} (h : s.check.state ≠ .normal) :
    s.clearTrends = (s.trendsZeroed.offer (.profile .normal s.check.state 4 #v[0, 0, 0, 0] 0)).setReasons
      (fun r => { r with profile := false }) := by
  have hmove := moveTrend_changed (s := s.modCheck (fun c => { c with trends := Vector.replicate 4 0 })) (Ne.symm h) 0
  rw [clearTrends, hmove, syncProfileHold, setReasons_check, offer_check]
  exact setReasons_self (by rw [setReasons_reasons])

end State

/-- Settles O50: the reason follows the hold flag, then the test moves the state or leaves it; CLEAR_TREND likewise. -/
theorem profileRequests : Obligations.ProfileRequests := by
  refine ⟨?settings, fun s id empty => ⟨fun h => ?normal, fun h => ?zeroed⟩⟩
  case settings =>
    intro s id p empty length on hold nominals c clamped profile
    have hc : c = profileSettings p s.check := by
      have hdims : dimCfg p = fun i => _ := funext (dimCfg_eq p)
      simp only [c, profileSettings, flag, hdims]
    have hclamped : clamped = (decide (clamp 1 8 (u8 p 2) ≠ u8 p 2) || decide (∃ i : Fin 4,
        (dimCfg p i).tolerance ≠ u16 p (5 + 8 * i.val) ∨ (dimCfg p i).warn ≠ u16 p (7 + 8 * i.val)
        ∨ (dimCfg p i).limit ≠ u16 p (9 + 8 * i.val))) := by
      simp only [clamped, hc, profileSettings, Fin.getElem_fin, Vector.getElem_ofFn, Fin.eta]
    have hheld : (s.arrived ⟨0x0A, id, p⟩).profileHeld p
        = profile s.check.state { s.arrived ⟨0x0A, id, p⟩ with check := c } := by
      simp only [profile, hc]
      rfl
    have hcheck : ((s.arrived ⟨0x0A, id, p⟩).profileHeld p).check = c := by rw [hheld, setReasons_check]
    rw [hclamped]
    refine ⟨fun same => ?same, fun changed => ?changed⟩
    case same =>
      refine exec_setProfile empty length on hold nominals ?_
      rw [putProfile_eq, moveTrend_same, hheld]
      rw [hcheck, arrived_check, ← hc, same]
    case changed =>
      refine exec_setProfile empty length on hold nominals ?_
      rw [putProfile_eq, arrived_check, ← hc, moveTrend_changed (by rw [hcheck]; exact changed), hcheck, hheld]
  case normal => exact exec_clearTrend empty (clearTrends_normal h)
  case zeroed => exact exec_clearTrend empty (clearTrends_changed h)

end Sys2Proof.Machine
end

section
/-! SET_POCKET, and the moves of a pocket that the requests make (R132, R151). -/

namespace Sys2Proof.Machine

open State

/-! ### A pocket's move (R151) -/

namespace State

theorem modPocket_modPocket (k : Fin 12) (f g : Pocket → Pocket) (s : State) :
    (s.modPocket k f).modPocket k g = s.modPocket k (fun x => g (f x)) := by
  simp [modPocket]

theorem movePocket_eq (k : Fin 12) (new : PocketState) (event : PocketEvent) (n : Nat) (s : State) :
    s.movePocket k new event n = (s.modPocket k (fun x => { x with state := new })).offer
      ((s.pocket k).report k (s.pocket k).state new event n) := by
  rw [movePocket, pocket_modPocket]
  rfl

/-- A pocket changed and then moved: the report is on the pocket as changed. -/
theorem movePocket_modPocket (k : Fin 12) (f : Pocket → Pocket) (new : PocketState) (event : PocketEvent) (n : Nat)
    (s : State) : (s.modPocket k f).movePocket k new event n
      = (s.modPocket k (fun x => { f x with state := new })).offer
        ((f (s.pocket k)).report k (f (s.pocket k)).state new event n) := by
  rw [movePocket_eq, modPocket_modPocket, pocket_modPocket]

theorem putPocket_same {s : State} {p : List Byte} {k : Fin 12} (number : Fin.ofNat 12 (u8 p 0) = k)
    (h : (s.pocket k).state = configuredState p) :
    s.putPocket p = s.modPocket k (fun x => { x with cfg := pocketCfg p }) := by
  simp only [putPocket, number, if_pos h]

theorem putPocket_moved {s : State} {p : List Byte} {k : Fin 12} (number : Fin.ofNat 12 (u8 p 0) = k)
    (h : (s.pocket k).state ≠ configuredState p) :
    s.putPocket p = (s.modPocket k (fun x => { x with cfg := pocketCfg p, state := configuredState p })).offer
      ({ s.pocket k with cfg := pocketCfg p }.report k (s.pocket k).state (configuredState p) .configured 0) := by
  simp only [putPocket, number, if_neg h, movePocket_modPocket]

end State

theorem PocketPayload.passes {p : List Byte} (h : PocketPayload p) {s : State} {k : Fin 12} (number : u8 p 0 = k.val)
    (rests : (s.pocket k).state = .empty ∨ (s.pocket k).state = .offline)
    (unkicked : (s.pocket k).cfg.isBin = false ∨ s.pendingKicks k = 0) : ∀ c ∈ pocketChecks p s, c.1 = false := by
  obtain ⟨-, hflags, hgrade, hkicker, hposition, halternate, hrows, hlimits⟩ := h
  have hk : Fin.ofNat 12 (u8 p 0) = k := fin_of_u8 number
  have hkn := k.isLt
  have hrests : (decide ((s.pocket k).state ≠ .empty) && decide ((s.pocket k).state ≠ .offline)) = false := by
    rcases rests with h | h <;> simp [h]
  have hunkicked : ((s.pocket k).cfg.isBin && decide (s.pendingKicks k ≠ 0)) = false := by
    rcases unkicked with h | h <;> simp [h]
  simp only [pocketChecks, hk, hrests, hunkicked, List.mem_cons, List.not_mem_nil, or_false, forall_eq_or_imp, forall_eq, true_and,
    badFlag, outside, badOpt, flag, Bool.or_eq_false_iff, Bool.and_eq_false_iff, decide_eq_false_iff_not]
  omega

theorem pocketClamped_eq (p : List Byte) : pocketClamped p = (decide (10 < u8 p 13) || decide (1000 < u16 p 14)
    || decide (50 < u8 p 17) || decide (100 < u8 p 18)) := by
  simp only [pocketClamped, outside_zero]

theorem pocketCfg_eq (p : List Byte) : pocketCfg p =
    { inService := decide (u8 p 1 = 1)
      isBin := decide (u8 p 2 = 1)
      grade := Fin.ofNat 8 (u8 p 3)
      kicker := optIdx 24 (u8 p 4)
      position := u16 p 5
      offset := u16 p 7
      alternate := optIdx 12 (u8 p 9)
      rows := u8 p 10
      rowLen := u16 p 11
      joint := min 10 (u8 p 13)
      closeGap := min 1000 (u16 p 14)
      maxPieces := u8 p 16
      bonus := min 50 (u8 p 17)
      tolerance := min 100 (u8 p 18)
      capacity := u16 p 19 } := by
  simp only [pocketCfg, flag, clamp_zero]

theorem configuredState_eq (p : List Byte) : configuredState p = if u8 p 1 = 1 then .empty else .offline := by
  simp only [configuredState, flag, decide_eq_true_eq]

/-- Settles O51: a payload within its ranges passes every check, and the pocket moves only when its state changes. -/
theorem setPocket : Obligations.SetPocket := by
  intro s id p k empty number payload rests unkicked cfg new reply
  have hk : Fin.ofNat 12 (u8 p 0) = k := fin_of_u8 number
  have hcfg : pocketCfg p = cfg := pocketCfg_eq p
  have hnew : configuredState p = new := configuredState_eq p
  have hreply : reply = [0, flagByte (pocketClamped p)] := by rw [pocketClamped_eq]
  have hpass : ∀ c ∈ pocketChecks p (s.arrived ⟨0x0B, id, p⟩), c.1 = false := payload.passes number rests unkicked
  refine ⟨fun same => ?same, fun moved => ?moved⟩
  case same =>
    refine exec_handled rfl rfl (answer_setPocket id _) rfl empty payload.length hpass (Prod.ext ?_ hreply.symm)
    rw [← hcfg]
    exact putPocket_same hk (by rw [hnew]; exact same)
  case moved =>
    refine exec_handled rfl rfl (answer_setPocket id _) rfl empty payload.length hpass (Prod.ext ?_ hreply.symm)
    rw [← hcfg, ← hnew]
    exact putPocket_moved hk (by rw [hnew]; exact moved)

end Sys2Proof.Machine
end

section
/-! SET_LINE: the role of the feed-hold line moves, and a changed threshold is tested (R181, R182, R196). -/

namespace Sys2Proof.Machine

open State

theorem badOpt_eq_false {n v : Nat} (h : v < n ∨ v = 255) : badOpt n v = false := by
  simp only [badOpt, Bool.and_eq_false_iff, decide_eq_false_iff_not]
  omega

namespace State

/-- What no level request to the feed-hold line touches. -/
structure Asks (s t : State) : Prop where
  run   : t.run = s.run
  pairs : ∀ l, t.pairOf l = s.pairOf l
  pool  : t.pool = s.pool

theorem Asks.feedRequest (on : Bool) (l : Fin 24) (s : State) : s.Asks (s.feedRequest on l) := by
  obtain ⟨x, saw, q, tx, w, hset, -⟩ := feedRequest_changes on l s
  rw [hset]
  exact ⟨rfl, fun m => pairOf_of_pairs m rfl, rfl⟩

/-- A level request for the feed-hold role, which a line of an armed pair of `s` does not take (R181). -/
def asked (s : State) (on : Bool) (l : Fin 24) (u : State) : State := match s.pairOf l with
  | some k => u.offer (.lineInPair .runControl 0 l k)
  | none => if on then u.levelOn l else u.levelOff l

theorem feedRequest_eq_asked {s u : State} {l : Fin 24} (h : u.pairOf l = s.pairOf l) (on : Bool) :
    u.feedRequest on l = s.asked on l u := by
  cases hpair : s.pairOf l with
  | none => simp only [asked, feedRequest, levelRequest, h, hpair]
  | some k => simp only [asked, feedRequest, h, hpair]

/-- The former line of the role asked off. -/
def roleLeft (s u : State) : State := match s.run.settings.feedLine with
  | some l => s.asked false l u
  | none => u

/-- The new line of the role asked on while a reason stands. -/
def roleJoined (s : State) (new : Option (Fin 24)) (u : State) : State := match new with
  | some l => if s.run.reasons.any then s.asked true l u else u
  | none => u

/-- The former line of the role, if there is one, asked off. -/
def formerOff (former : Option (Fin 24)) (s : State) : State := match former with
  | some l => s.feedRequest false l
  | none => s

theorem moveFeedLine_same {s : State} {former : Option (Fin 24)} (h : former = s.run.settings.feedLine) :
    s.moveFeedLine former = s := if_pos h

theorem moveFeedLine_of_ne {s : State} {former : Option (Fin 24)} (h : former ≠ s.run.settings.feedLine) :
    s.moveFeedLine former = if (s.formerOff former).run.reasons.any then (s.formerOff former).feedLine true
      else s.formerOff former := if_neg h

theorem Asks.formerOff (former : Option (Fin 24)) (s : State) : s.Asks (s.formerOff former) := by
  cases former with
  | none => exact ⟨rfl, fun _ => rfl, rfl⟩
  | some l => exact .feedRequest false l s

theorem formerOff_eq_roleLeft {s u : State} (pairs : ∀ l, u.pairOf l = s.pairOf l) :
    u.formerOff s.run.settings.feedLine = s.roleLeft u := by
  unfold roleLeft
  cases s.run.settings.feedLine with
  | none => rfl
  | some l => exact feedRequest_eq_asked (pairs l) false

theorem moveFeedLine_eq {s u : State} (pairs : ∀ l, u.pairOf l = s.pairOf l) (reasons : u.run.reasons = s.run.reasons) :
    u.moveFeedLine s.run.settings.feedLine = if u.run.settings.feedLine = s.run.settings.feedLine then u
      else s.roleJoined u.run.settings.feedLine (s.roleLeft u) := by
  by_cases hsame : u.run.settings.feedLine = s.run.settings.feedLine
  · rw [if_pos hsame, moveFeedLine_same hsame.symm]
  · have hkeeps := Asks.formerOff s.run.settings.feedLine u
    rw [if_neg hsame, moveFeedLine_of_ne (Ne.symm hsame), hkeeps.run, reasons, feedLine, hkeeps.run,
      formerOff_eq_roleLeft pairs, roleJoined.eq_def]
    cases u.run.settings.feedLine with
    | none => exact ite_self _
    | some l =>
      have hpairs : (s.roleLeft u).pairOf l = s.pairOf l := by
        rw [← formerOff_eq_roleLeft pairs]
        exact (hkeeps.pairs l).trans (pairs l)
      exact if_congr Iff.rfl (feedRequest_eq_asked hpairs true) rfl

theorem putLine_eq (p : List Byte) (s : State) : s.putLine p =
    if (lineSettings p).threshold = s.run.settings.threshold then
      ({ s with run := { s.run with settings := lineSettings p } } : State).moveFeedLine s.run.settings.feedLine
    else (({ s with run := { s.run with settings := lineSettings p } } : State).moveFeedLine
      s.run.settings.feedLine).lowTest := rfl

/-- The test of a changed threshold (R182), on a state that has it. -/
theorem lowTest_eq {s : State} {n : Nat} (h : s.run.settings.threshold = n) : s.lowTest =
    if s.pool.free.length < n then s.setReasons (fun r => { r with lowRecords := true })
    else if n + 2 ≤ s.pool.free.length then s.setReasons (fun r => { r with lowRecords := false })
    else s := by
  subst h
  rfl

theorem moveFeedLine_run (former : Option (Fin 24)) (s : State) : (s.moveFeedLine former).run = s.run := by
  by_cases h : former = s.run.settings.feedLine
  · rw [moveFeedLine_same h]
  · have hrun := (Asks.formerOff former s).run
    rw [moveFeedLine_of_ne h, feedLine, hrun]
    cases s.run.settings.feedLine with
    | none => simp only [ite_self, hrun]
    | some l =>
      split
      · exact (Asks.feedRequest true l _).run.trans hrun
      · exact hrun

end State

/-- Settles O52: the settings stored, the role moves when its line changes, and the test follows a changed threshold. -/
theorem setLine : Obligations.SetLine := by
  intro s id p empty length regrade overflow feed running settings reply stored tested ask left joined
  have hreply : reply = [0, flagByte (outside 2 16 (u8 p 3) || outside 1 50 (u8 p 4))] := by
    rw [outside_eq_clamp (by decide), outside_eq_clamp (by decide)]
  refine exec_handled rfl rfl (answer_setLine id _) rfl empty length ?pass (Prod.ext ?acted hreply.symm)
  case pass =>
    have hstops : (s.running && (decide (u8 p 0 = 255) || decide (u8 p 1 = 255))) = false := by
      by_cases hrun : s.running = true
      · simp [running hrun]
      · simp [hrun]
    have hopts : badOpt 12 (u8 p 0) = false ∧ badOpt 12 (u8 p 1) = false ∧ badOpt 24 (u8 p 2) = false :=
      ⟨badOpt_eq_false (by omega), badOpt_eq_false (by omega), badOpt_eq_false (by omega)⟩
    simp [hopts, hstops]
  case acted =>
    have hmoved := moveFeedLine_eq (s := s.arrived ⟨0x0C, id, p⟩) (u := stored (s.arrived ⟨0x0C, id, p⟩))
      (fun l => pairOf_of_pairs l rfl) rfl
    refine (putLine_eq p _).trans ?_
    rw [lowTest_eq (n := settings.threshold) (by rw [moveFeedLine_run]; rfl)]
    exact congrArg tested hmoved

end Sys2Proof.Machine
end

section
/-! SET_LABEL and SET_REPORTS (R155, R156, R161, R194). -/

namespace Sys2Proof.Machine

open State

namespace State

/-- Outside IDLE no send starts by new settings (R155, R160). -/
theorem putLabel_of_state {s : State} {p : List Byte} (h : s.labels.state ≠ .idle) :
    s.putLabel p = s.modLabels (labelSettings p) := by
  have hstays : (s.modLabels (labelSettings p)).trySend = s.modLabels (labelSettings p) := trySend_of_state h
  unfold putLabel
  dsimp only
  rw [hstays, ite_self]

theorem labelSettings_eq (p : List Byte) (c : LabelChannel) : labelSettings p c =
    { c with
      species := Vector.ofFn (fun i => p.getD i.val 0)
      lot := Vector.ofFn (fun i => p.getD (4 + i.val) 0)
      width := u16 p 12
      copies := u8 p 14
      flow := flowOf (u8 p 15)
      pace := clamp 100 60000 (u16 p 16)
      ackTimeout := clamp 100 10000 (u16 p 18)
      serial := if u8 p 20 = 1 then u32 p 21 else c.serial
      permit := if flowOf (u8 p 15) = c.flow then c.permit else false } := by
  simp only [labelSettings, chars, flag, decide_eq_true_eq, Nat.zero_add]

theorem stateBytes_mask (s : State) : s.stateBytes.reverse[8]? = some s.reports.mask := by
  have hend : ∀ (l : List Byte) (seq mask : Byte) (n m : Nat),
      (l ++ [seq, mask] ++ be32 n ++ be32 m).reverse[8]? = some mask := by
    intro l seq mask n m
    simp [be32]
  exact hend ..

end State

theorem Report.kindIndex_le (r : Report) : r.kindIndex ≤ 7 := by
  cases r <;> simp [Report.kindIndex]

/-- Settles O53: SET_LABEL stores the settings, SET_REPORTS the mask, which only a power-on clears. -/
theorem setLabelAndReports : Obligations.SetLabelAndReports := by
  refine ⟨?label, fun s id mask empty => ?mask, fun s r h => offer_masked h, Report.kindIndex_le, fun s t found h => ?on,
    fun s t h => ?soft, stateBytes_mask⟩
  case label =>
    intro s id p empty length printable width copies copies' mode form serial busy flow pace timeout
    refine exec_handled rfl rfl (answer_setLabel id _) rfl empty length ?pass (Prod.ext ?acted ?reply)
    case pass =>
      have hspecies : badChars p 0 4 = false := badChars_eq_false fun i => printable _ (by omega)
      have hlot : badChars p 4 8 = false := badChars_eq_false fun i => printable _ (by omega)
      simp only [hspecies, hlot, List.mem_cons, List.not_mem_nil, or_false, forall_eq_or_imp, forall_eq, true_and,
        badFlag, outside, flag, Bool.or_eq_false_iff, Bool.and_eq_false_iff, decide_eq_false_iff_not, Config.maxSerial]
      omega
    case acted =>
      refine (putLabel_of_state (s := s.arrived ⟨0x0D, id, p⟩) busy).trans ?_
      rw [modLabels, labelSettings_eq]
      rfl
    case reply =>
      show [(0 : Byte), flagByte (outside 100 60000 (u16 p 16) || outside 100 10000 (u16 p 18))] = _
      rw [outside_eq_clamp (by decide), outside_eq_clamp (by decide)]
  case mask => exact exec_handled rfl rfl (answer_setReports id _) rfl empty rfl (by simp) rfl
  case on =>
    rw [exec_powerOnReset, Host.Outcome.next.injEq] at h
    rw [← h, powerOn_reports]
  case soft =>
    rw [exec_softReset, Host.Outcome.next.injEq] at h
    rw [← h, softReset_reports]

end Sys2Proof.Machine
end

section
/-! HALT: the releases of every live record, and what they and the entry leave (R16, R18, R178, R179). -/

namespace Sys2Proof.Machine

open Sys2Proof.Config

namespace State

/-! ### The report mask is the host's alone (R194) -/

@[simp] theorem offer_mask (r : Report) (s : State) : (s.offer r).reports.mask = s.reports.mask := by
  by_cases hmask : s.masked r = true
  · rw [offer_masked hmask]
  · rw [Bool.not_eq_true] at hmask
    by_cases hroom : s.hasRoom r = true
    · rw [offer_admitted hmask hroom]
    · rw [offer_lost hmask (Bool.not_eq_true _ ▸ hroom)]

@[simp] theorem levelRequest_reports (on : Bool) (l : Fin 24) (s : State) : (s.levelRequest on l).reports = s.reports := by
  obtain ⟨x, saw, hset, -⟩ := levelRequest_changes on l s
  rw [hset]

@[simp] theorem setReasons_mask (f : HoldReasons → HoldReasons) (s : State) :
    (s.setReasons f).reports.mask = s.reports.mask := by
  unfold setReasons feedLine feedRequest
  dsimp only
  split
  · rfl
  · split
    · split
      · rw [offer_mask]
      · rw [levelRequest_reports]
    · rfl

@[simp] theorem movePocket_mask (k : Fin 12) (new : PocketState) (event : PocketEvent) (n : Nat) (s : State) :
    (s.movePocket k new event n).reports.mask = s.reports.mask := by
  rw [movePocket_eq, offer_mask]
  rfl

@[simp] theorem labelBundle_mask (k : Fin 12) (b : Bundle) (s : State) :
    (s.labelBundle k b).reports.mask = s.reports.mask := by
  have hcompose : (s.compose k b).reports = s.reports := by
    unfold compose
    obtain ⟨c, hsend⟩ := trySend_changes (s.modLabels (fun c => { c with
      queue := c.queue ++ [s.composed k b]
      serial := stepSerial s.nextSerial }))
    rw [hsend]
    rfl
  rw [labelBundle, movePocket_mask]
  exact congrArg (fun q => q.mask) hcompose

@[simp] theorem closingTest_mask (k : Fin 12) (s : State) : (s.closingTest k).reports.mask = s.reports.mask := by
  unfold closingTest
  repeat' split
  · exact offer_mask ..
  · exact labelBundle_mask ..
  · exact movePocket_mask ..
  all_goals rfl

/-! ### Lists and liveness (R1, R11) -/

theorem mem_list_iff {s : State} (lists : s.pool.Partitioned) (x : Sec) (i : Fin 64) :
    i ∈ s.list x ↔ (s.record i).loc = locOf x := lists.onSec x i

theorem mem_liveList {s : State} (lists : s.pool.Partitioned) (i : Fin 64) : i ∈ s.liveList ↔ s.live i = true := by
  rw [live_iff]
  simp only [liveList, List.mem_append, mem_list_iff lists, locOf]
  cases (s.record i).loc <;> simp

/-- With no live record every list of a section is empty, and FREE holds all 64 records. -/
theorem lists_of_dead {s : State} (lists : s.pool.Partitioned) (dead : ∀ i, s.live i = false) :
    (∀ y : Sec, s.list y = []) ∧ s.pool.free.length = 64 := by
  have hfree : ∀ i : Fin 64, (s.record i).loc = .free := by
    intro i
    by_contra h
    have hlive : s.live i = true := live_iff.mpr h
    simp [dead i] at hlive
  refine ⟨fun y => ?_, ?_⟩
  · rw [List.eq_nil_iff_forall_not_mem]
    intro i hi
    rw [mem_list_iff lists] at hi
    have := (hfree i).symm.trans hi
    cases y <;> simp [locOf] at this
  · have hall : s.pool.free.toFinset = Finset.univ := by
      ext i
      simp only [List.mem_toFinset, lists.free, Finset.mem_univ, iff_true]
      exact hfree i
    rw [← List.toFinset_card_of_nodup lists.freeNodup, hall, Finset.card_univ, Fintype.card_fin]

/-! ### Releases in HALT -/

/-- What the releases in HALT leave of run control, scanner link, pairs, reports and bank commit. -/
structure Steady (s t : State) : Prop where
  state    : t.run.state = s.run.state
  halt     : t.run.halt = s.run.halt
  settings : t.run.settings = s.run.settings
  stands   : t.run.reasons.notRunning = s.run.reasons.notRunning
  scan     : t.scan = s.scan
  pairs    : t.out.pairs = s.out.pairs
  mask     : t.reports.mask = s.reports.mask
  active   : t.solver.active = s.solver.active
  commit   : t.solver.commitPending = s.solver.commitPending

theorem Steady.refl (s : State) : s.Steady s := ⟨rfl, rfl, rfl, rfl, rfl, rfl, rfl, rfl, rfl⟩

theorem Steady.trans {s t u : State} (h : s.Steady t) (k : t.Steady u) : s.Steady u :=
  ⟨k.state.trans h.state, k.halt.trans h.halt, k.settings.trans h.settings, k.stands.trans h.stands,
    k.scan.trans h.scan, k.pairs.trans h.pairs, k.mask.trans h.mask, k.active.trans h.active, k.commit.trans h.commit⟩

/-- `t` comes from `s`, a state in HALT, by the release of the live ones among `l`. -/
structure Freed (s t : State) (l : List (Fin 64)) : Prop where
  steady : s.Steady t
  live   : ∀ j, t.live j = (s.live j && !decide (j ∈ l))
  queue  : t.solver.queue = s.solver.queue.filter (fun j => !(s.live j && decide (j ∈ l)))
  flight : t.solver.flight = s.solver.flight.filter (fun f => !(s.live f.index && decide (f.index ∈ l)))

/-- Nothing is released where none of the list is live. -/
theorem Freed.of_blank {s : State} {l : List (Fin 64)} (blank : ∀ i ∈ l, s.live i = false) : s.Freed s l := by
  have hnone : ∀ j, (s.live j && decide (j ∈ l)) = false := by
    intro j
    by_cases hj : j ∈ l
    · simp [blank j hj]
    · simp [hj]
  refine ⟨.refl s, fun j => ?_, ?_, ?_⟩
  · by_cases hj : j ∈ l
    · simp [blank j hj]
    · simp [hj]
  · simp [hnone]
  · cases s.solver.flight <;> simp [hnone, Option.filter]

theorem Freed.trans {s t u : State} {l m : List (Fin 64)} (h : s.Freed t l) (k : t.Freed u m) : s.Freed u (l ++ m) where
  steady := h.steady.trans k.steady
  live j := by
    rw [k.live, h.live]
    by_cases hl : j ∈ l <;> by_cases hm : j ∈ m <;> simp [hl, hm]
  queue := by
    rw [k.queue, h.queue, List.filter_filter]
    refine List.filter_congr fun j _ => ?_
    rw [h.live]
    by_cases hl : j ∈ l <;> by_cases hm : j ∈ m <;> simp [hl, hm]
  flight := by
    rw [k.flight, h.flight, Option.filter_filter]
    congr 1
    funext f
    rw [h.live]
    by_cases hl : f.index ∈ l <;> by_cases hm : f.index ∈ m <;> simp [hl, hm]

/-! One release (R16). -/

theorem solverNext_of_stopped {s : State} (h : s.running = false) : s.solverNext = s := by
  unfold solverNext
  split
  · rw [if_neg (by simp [h])]
  · rfl

theorem solverForget_of_stopped {i : Fin 64} {s : State} (h : s.running = false) : s.solverForget i
    = { s with solver := { s.solver with
        queue := s.solver.queue.filter (fun j => decide (j ≠ i))
        flight := s.solver.flight.filter (fun f => decide (f.index ≠ i)) } } := by
  unfold solverForget
  dsimp only
  rw [solverNext_of_stopped (by exact h)]
  cases hf : s.solver.flight with
  | none => simp [modSolver, inFlight, hf]
  | some f => by_cases hi : f.index = i <;> simp [modSolver, inFlight, hf, hi, Option.filter]

theorem handBack_moves {i : Fin 64} {s : State} (live : s.live i = true) : ∃ t, s.PocketsMoved t ∧
    t.reports.mask = s.reports.mask ∧ ∃ r, s.handBack i = t.setRecord i r := by
  cases h : (s.record i).placement with
  | none => exact ⟨s, .refl s, rfl, s.record i, by rw [handBack_unplaced h]; simp [setRecord, record]⟩
  | some pl =>
    refine ⟨_, ((PocketsMoved.refl s).unreserve pl).closingTest pl.pocket, ?_, { s.record i with placement := none }, ?_⟩
    · rw [closingTest_mask]
      rfl
    · rw [handBack_placed h live, closingTest_setRecord]

theorem toFree_live (i j : Fin 64) (s : State) : (s.toFree i).live j = (s.live j && decide (j ≠ i)) := by
  by_cases h : j = i
  · subst h
    simp [toFree, live, record]
  · have hrecord : (s.toFree i).record j = s.record j :=
      Vector.getElem_set_ne (by omega) (by omega) (fun hv => h (Fin.ext hv.symm))
    simp [live, hrecord, h]

theorem lowAfterRelease_steady (s : State) : s.Steady s.lowAfterRelease ∧ s.lowAfterRelease.pool = s.pool
    ∧ s.lowAfterRelease.solver = s.solver := by
  unfold lowAfterRelease
  split
  · have hmask := setReasons_mask (fun r => { r with lowRecords := false }) s
    obtain ⟨lines, saw, q, tx, w, hset, -, -⟩ := setReasons_changes (fun r => { r with lowRecords := false }) s
    rw [hset] at hmask ⊢
    exact ⟨⟨rfl, rfl, rfl, rfl, rfl, rfl, hmask, rfl, rfl⟩, rfl, rfl⟩
  · exact ⟨.refl s, rfl, rfl⟩

theorem drainTest_of_state {s : State} (h : s.run.state ≠ .drain) : s.drainTest = s := if_neg fun k => h k.1

theorem PocketsMoved.steady {s t : State} (h : s.PocketsMoved t) (mask : t.reports.mask = s.reports.mask) : s.Steady t := by
  obtain ⟨ps, ls, q, tx, w, rfl⟩ := h
  exact ⟨rfl, rfl, rfl, rfl, rfl, rfl, mask, rfl, rfl⟩

theorem solverForget_steady {s : State} (h : s.running = false) (i : Fin 64) : s.Steady (s.solverForget i) := by
  rw [solverForget_of_stopped h]
  exact ⟨rfl, rfl, rfl, rfl, rfl, rfl, rfl, rfl, rfl⟩

/-- A release in HALT, before the low-records test: the record joins FREE from a state that has forgotten it. -/
theorem release_halted {s : State} {i : Fin 64} (h : s.run.state = .halt) (live : s.live i = true) :
    ∃ u, s.release i = (u.toFree i).lowAfterRelease ∧ s.Steady u ∧ (∀ j, u.live j = s.live j)
      ∧ u.solver.queue = s.solver.queue.filter (fun j => decide (j ≠ i))
      ∧ u.solver.flight = s.solver.flight.filter (fun f => decide (f.index ≠ i)) := by
  have hrest : s.running = false := by simp [running, h]
  have hforgotten : s.Steady ((s.solverForget i).removeEntries i) :=
    (solverForget_steady hrest i).trans ⟨rfl, rfl, rfl, rfl, rfl, rfl, rfl, rfl, rfl⟩
  have hbefore : ∀ j, ((s.solverForget i).removeEntries i).live j = s.live j := fun j => by
    rw [removeEntries_live, solverForget_live]
  obtain ⟨t, hmoved, hmask, r, hback⟩ := handBack_moves ((hbefore i).trans live)
  have hsteady : s.Steady (t.setRecord i r) :=
    (hforgotten.trans (hmoved.steady hmask)).trans ⟨rfl, rfl, rfl, rfl, rfl, rfl, rfl, rfl, rfl⟩
  have hsolver : (t.setRecord i r).solver = (s.solverForget i).solver := hmoved.solver
  refine ⟨t.setRecord i r, ?_, hsteady, fun j => ?_, ?_, ?_⟩
  · unfold release
    rw [if_pos live, hback, drainTest_of_state]
    rw [(lowAfterRelease_steady _).1.state]
    exact (hsteady.state.trans h) ▸ by decide
  · rw [← hback, handBack_live, hbefore]
  · rw [hsolver, solverForget_of_stopped hrest]
  · rw [hsolver, solverForget_of_stopped hrest]

theorem Freed.release {s : State} (h : s.run.state = .halt) (i : Fin 64) : s.Freed (s.release i) [i] := by
  by_cases live : s.live i = true
  case neg =>
    rw [Bool.not_eq_true] at live
    have hstays : s.release i = s := by
      unfold State.release
      rw [live]
      rfl
    rw [hstays]
    exact .of_blank fun j hj => List.mem_singleton.mp hj ▸ live
  case pos =>
    obtain ⟨u, hrelease, hu, hlive, hqueue, hflight⟩ := release_halted h live
    obtain ⟨hlow, hpool, hsolver⟩ := lowAfterRelease_steady (u.toFree i)
    have hgone : ∀ j, (!(s.live j && decide (j ∈ [i]))) = decide (j ≠ i) := by
      intro j
      by_cases hj : j = i <;> simp [hj, live]
    rw [hrelease]
    refine ⟨(hu.trans (u := u.toFree i) ⟨rfl, rfl, rfl, rfl, rfl, rfl, rfl, rfl, rfl⟩).trans hlow, fun j => ?live, ?queue, ?flight⟩
    case live =>
      rw [live_of_pool hpool, toFree_live, hlive]
      simp
    case queue =>
      simp only [hsolver, hgone]
      exact hqueue
    case flight =>
      simp only [hsolver, hgone]
      exact hflight

theorem Freed.foldl (l : List (Fin 64)) : ∀ {s : State}, s.run.state = .halt →
    s.Freed (l.foldl (fun u i => u.release i) s) l := by
  induction l with
  | nil => exact fun _ => .of_blank (by simp)
  | cons i l ih =>
    intro s h
    have hone := Freed.release h i
    exact hone.trans (ih (hone.steady.state.trans h))

/-! ### Entry to HALT (R178, R179) -/

/-- The line in HALT with its reason, and the bank commit taken; no record is released yet. -/
def halting (reason : HaltReason) (s : State) : State :=
  (({ s with run := { s.run with state := .halt, halt := reason } } : State).setReasons
    (fun r => { r with notRunning := true })).bankCommit

/-- The blocks emptied and the outputs safe; the RUN report is not offered yet. -/
def haltedBlocks (keep : Option (Fin 24)) (s : State) : State := s.emptyQueues.stopFollowing.outputsSafe keep

theorem enterHalt_eq (reason : HaltReason) (cause : RunCause) (s : State) : s.enterHalt reason cause
    = ((s.halting reason).releaseAll.haltedBlocks s.run.settings.feedLine).reportRun s.run.state cause
      s.liveList.length := rfl

/-- What the line in HALT has of the state before. -/
structure Halting (s t : State) (reason : HaltReason) : Prop where
  state    : t.run.state = .halt
  halt     : t.run.halt = reason
  settings : t.run.settings = s.run.settings
  stands   : t.run.reasons.notRunning = true
  pool     : t.pool = s.pool
  scan     : t.scan = s.scan
  pairs    : t.out.pairs = s.out.pairs
  mask     : t.reports.mask = s.reports.mask
  queue    : t.solver.queue = s.solver.queue
  flight   : t.solver.flight = s.solver.flight
  commit   : t.solver.commitPending = false
  active   : t.solver.active = if s.solver.commitPending then s.solver.active.other else s.solver.active

theorem halting_halting (reason : HaltReason) (s : State) : s.Halting (s.halting reason) reason := by
  have hmask := setReasons_mask (fun r => { r with notRunning := true })
    ({ s with run := { s.run with state := .halt, halt := reason } } : State)
  obtain ⟨lines, saw, q, tx, w, hset, -, -⟩ := setReasons_changes (fun r => { r with notRunning := true })
    ({ s with run := { s.run with state := .halt, halt := reason } } : State)
  rw [hset] at hmask
  rw [halting, bankCommit_changes, hset]
  exact ⟨rfl, rfl, rfl, rfl, rfl, rfl, rfl, hmask, rfl, rfl, rfl, rfl⟩

/-- A RUN report is masked, or stands last in the queue, or is counted lost. -/
theorem offer_run {s : State} {r : Report} (kind : r.kindIndex = 7) : s.reports.mask.getLsbD 7 = true
    ∨ ((s.offer r).reports.queue.getLast?).map QueuedReport.body = some r
    ∨ (48 ≤ (s.offer r).reports.queue.length ∧ 0 < (s.offer r).reports.lost) := by
  by_cases hmask : s.masked r = true
  · left
    rwa [masked, kind] at hmask
  · rw [Bool.not_eq_true] at hmask
    by_cases hroom : s.hasRoom r = true
    · right; left
      simp [offer_admitted hmask hroom]
    · right; right
      have hfull := (hasRoom_iff s r).not.mp hroom
      rw [Bool.not_eq_true] at hroom
      rw [offer_lost hmask hroom]
      constructor
      · show 48 ≤ s.reports.queue.length
        omega
      · show 0 < min 65535 (s.reports.lost + 1)
        omega

/-- What the blocks at entry to HALT leave, and what they keep. -/
theorem haltedBlocks_sec (keep : Option (Fin 24)) (y : Sec) (s : State) :
    ((s.haltedBlocks keep).sec y).schedule = [] ∧ ((s.haltedBlocks keep).sec y).awaiting = none := by
  simp [haltedBlocks, emptyQueues, stopFollowing, sec, modSecs, modCuts]

/-- Entry to HALT leaves what R178 and R179 say. -/
theorem enterHalt_haltedFrom {s : State} (lists : s.pool.Partitioned) (reason : HaltReason) (cause : RunCause) :
    s.HaltedFrom (s.enterHalt reason cause) reason cause := by
  have hhalt := halting_halting reason s
  have hlive : ∀ i, (s.halting reason).live i = s.live i := live_of_pool hhalt.pool
  have hmem : ∀ i, i ∈ (s.halting reason).liveList ↔ s.live i = true := fun i => by
    rw [mem_liveList (hhalt.pool ▸ lists), hlive]
  have hfreed : (s.halting reason).Freed (s.halting reason).releaseAll (s.halting reason).liveList := .foldl _ hhalt.state
  have hsteady := hfreed.steady
  have hgone : ∀ i, ((s.halting reason).live i && decide (i ∈ (s.halting reason).liveList)) = s.live i := by
    intro i
    rw [hlive, Bool.eq_iff_iff, Bool.and_eq_true, decide_eq_true_iff, hmem, and_self]
  have hqueue : (s.halting reason).releaseAll.solver.queue = s.solver.queue.filter (fun i => !s.live i) := by
    rw [hfreed.queue, hhalt.queue]
    simp only [hgone]
  have hflight : (s.halting reason).releaseAll.solver.flight = s.solver.flight.filter (fun f => !s.live f.index) := by
    rw [hfreed.flight, hhalt.flight]
    simp only [hgone]
  have hmask : ((s.halting reason).releaseAll.haltedBlocks s.run.settings.feedLine).reports.mask = s.reports.mask :=
    hsteady.mask.trans hhalt.mask
  have hrun := offer_run (s := (s.halting reason).releaseAll.haltedBlocks s.run.settings.feedLine)
    (r := .run s.run.state .halt cause s.liveList.length) rfl
  have hstate : (s.halting reason).releaseAll.run.state = .halt := hsteady.state.trans hhalt.state
  have ht : s.enterHalt reason cause = ((s.halting reason).releaseAll.haltedBlocks s.run.settings.feedLine).offer
      (.run s.run.state .halt cause s.liveList.length) :=
    (enterHalt_eq reason cause s).trans (congrArg
      (fun st => ((s.halting reason).releaseAll.haltedBlocks s.run.settings.feedLine).offer
        (.run s.run.state st cause s.liveList.length)) hstate)
  have hpart : (s.enterHalt reason cause).pool.Partitioned := (enterHalt_calm Calm.rfl').lists lists
  generalize (s.halting reason).releaseAll = u at *
  have hmoved := (PocketsMoved.refl (u.haltedBlocks s.run.settings.feedLine)).offer
    (.run s.run.state .halt cause s.liveList.length)
  have hgauge : (s.enterHalt reason cause).gauge = .idle := by
    obtain ⟨q, tx, w, hoffer⟩ := offer_changes (.run s.run.state .halt cause s.liveList.length)
      (u.haltedBlocks s.run.settings.feedLine)
    rw [ht, hoffer]
    rfl
  rw [← ht] at hmoved hrun
  rw [hmask] at hrun
  have hpool : (s.enterHalt reason cause).pool = u.pool := hmoved.pool
  have hdead : ∀ i, (s.enterHalt reason cause).live i = false := by
    intro i
    rw [live_of_pool hpool, hfreed.live, hlive]
    by_cases hi : s.live i = true
    · simp [hi, (hmem i).mpr hi]
    · simp [hi]
  obtain ⟨hlists, hfree⟩ := lists_of_dead hpart hdead
  clear hpart hdead hpool ht
  generalize s.enterHalt reason cause = t at *
  have hrunBlock : t.run = u.run := hmoved.run
  have hcuts : t.cuts = (u.haltedBlocks s.run.settings.feedLine).cuts := hmoved.cuts
  have hsolver : t.solver = u.solver := hmoved.solver
  have hsec : ∀ y, t.sec y = (u.haltedBlocks s.run.settings.feedLine).sec y := fun y => congrArg (·[y.idx]) hmoved.secs
  have hpair : ∀ p, t.pair p = (u.haltedBlocks s.run.settings.feedLine).pair p := fun p =>
    congrArg (fun o : OutputStage => o.pairs[p]) hmoved.out
  have hline : ∀ l, t.line l = (u.haltedBlocks s.run.settings.feedLine).line l := fun l =>
    congrArg (fun o : OutputStage => o.lines[l]) hmoved.out
  have hscan : t.scan.starts = s.scan.starts.take 1 :=
    (congrArg ScanIntake.starts hmoved.scan).trans
      (congrArg (fun c : ScanIntake => c.starts.take 1) (hsteady.scan.trans hhalt.scan))
  have hnoFlight : (∀ i, s.inFlight i = true ∨ i ∈ s.solver.queue → s.live i = true) → t.solver.flight = none := by
    intro h
    rw [hsolver, hflight, Option.filter_eq_none_iff]
    intro f hf
    simp [h f.index (.inl (by simp [inFlight, hf]))]
  have hnoQueue : (∀ i, s.inFlight i = true ∨ i ∈ s.solver.queue → s.live i = true) → t.solver.queue = [] := by
    intro h
    rw [hsolver, hqueue, List.filter_eq_nil_iff]
    intro i hi
    simp [h i (.inr hi)]
  have hpairs : ∀ p, t.pair p = (s.pair p).map Pair.rest := by
    intro p
    rw [hpair, haltedBlocks, pair_outputsSafe]
    exact congrArg (fun v : Vector (Option Pair) 6 => v[p].map Pair.rest) (hsteady.pairs.trans hhalt.pairs)
  have hlines : ∀ l, s.run.settings.feedLine ≠ some l → (t.line l).state = .off := by
    intro l h
    rw [hline, haltedBlocks, line_outputsSafe, if_neg h]
    rfl
  refine ⟨by rw [hrunBlock, hstate], by rw [hrunBlock, hsteady.halt, hhalt.halt],
    by rw [hrunBlock, hsteady.stands, hhalt.stands], hlists, hfree, fun y => hsec y ▸ haltedBlocks_sec _ y u,
    by rw [hcuts]; rfl, by rw [hcuts]; rfl, by rw [hcuts]; rfl, by rw [hcuts]; rfl, hgauge, hscan,
    by rw [hsolver, hqueue], by rw [hsolver, hflight], fun h => ⟨hnoFlight h, hnoQueue h⟩,
    by rw [hsolver, hsteady.commit, hhalt.commit], by rw [hsolver, hsteady.active, hhalt.active], hpairs, hlines, hrun⟩

end State

end Sys2Proof.Machine
end

section
/-! START_LINE, STOP_LINE, HALT_LINE and CLEAR_HALT (R173 to R180). -/

namespace Sys2Proof.Machine

open State

namespace State

@[simp] theorem setReasons_state (f : HoldReasons → HoldReasons) (s : State) :
    (s.setReasons f).run.state = s.run.state := by
  obtain ⟨lines, saw, q, tx, w, hset, -, -⟩ := setReasons_changes f s
  rw [hset]

/-! ### START_LINE (R174, R175) -/

theorem missingItem_eq_none {s : State} (graded : ∃ g : Fin 8, ((s.table s.solver.active).grades[g]).defined = true)
    (distances : ∀ x : Sec, (s.sec x).cfg.distance ≠ 0) (saw : s.cuts.sawLine.isSome = true)
    (commit : (s.sec .s2).cfg.commit < s.cuts.sawPos) (regrade : s.run.settings.regrade.isSome = true)
    (overflow : s.run.settings.overflow.isSome = true)
    (kickers : ∀ p : Fin 12, (s.pocket p).state ≠ .offline → (s.sec .s4).cfg.sort < (s.pocket p).cfg.position) :
    s.missingItem = none := by
  have hgrade : s.definesGrade s.solver.active = true := definesGrade_iff.mpr graded
  have hset : [Sec.s1, .s2, .s3, .s4].find? s.unset = none := by
    rw [List.find?_eq_none]
    intro x _
    simp [unset, distances x]
  have hkicker : s.earlyKicker = none := by
    unfold earlyKicker
    rw [List.find?_eq_none]
    intro p _
    by_cases h : (s.pocket p).state = .offline
    · simp [h]
    · simp [h, kickers p h]
  have hsaw : s.cuts.sawLine ≠ none := by simpa [Option.isSome_iff_ne_none] using saw
  have hregrade : s.run.settings.regrade ≠ none := by simpa [Option.isSome_iff_ne_none] using regrade
  have hoverflow : s.run.settings.overflow ≠ none := by simpa [Option.isSome_iff_ne_none] using overflow
  unfold missingItem
  rw [hset]
  simp [hgrade, hsaw, hregrade, hoverflow, hkicker, commit]

theorem enterRun_eq (s : State) : s.enterRun = (({ s with
    run := { s.run with state := .run }
    secs := Vector.ofFn (fun i => { s.secs[i] with highMark := s.secs[i].counter })
    gauge := .idle } : State).setReasons (fun r => { r with notRunning := false })).offer (.run .config .run .startLine 0) := by
  unfold enterRun reportRun
  dsimp only
  rw [setReasons_state]
  rfl

theorem returnToRun_eq (s : State) : s.returnToRun = (({ s with run := { s.run with state := .run } } : State).setReasons
    (fun r => { r with notRunning := false })).offer (.run .drain .run .startLine 0) := by
  unfold returnToRun reportRun
  rw [setReasons_state]
  rfl

/-! ### STOP_LINE (R176, R177, R180) -/

/-- The line in DRAIN, before the drain test. -/
def draining (s : State) : State :=
  (({ s with run := { s.run with state := .drain } } : State).setReasons (fun r => { r with notRunning := true })).offer
    (.run .run .drain .stopLine 0)

theorem enterDrain_eq (s : State) : s.enterDrain = s.draining.drainTest := by
  unfold enterDrain reportRun
  rw [setReasons_state]
  rfl

theorem draining_changes (s : State) : ∃ out q host, s.draining = { s with
    run := { s.run with
      state := .drain
      reasons := { s.run.reasons with notRunning := true } }
    out := out
    reports := q
    host := host } := by
  obtain ⟨lines, saw, q, tx, w, hset, -, -⟩ := setReasons_changes (fun r => { r with notRunning := true })
    ({ s with run := { s.run with state := .drain } } : State)
  obtain ⟨q', tx', w', hoffer⟩ := offer_changes (.run .run .drain .stopLine 0)
    (({ s with run := { s.run with state := .drain } } : State).setReasons (fun r => { r with notRunning := true }))
  exact ⟨_, _, _, hoffer.trans (by rw [hset])⟩

theorem draining_drained (s : State) : s.draining.drained = s.drained := by
  obtain ⟨out, q, host, hdrain⟩ := draining_changes s
  rw [hdrain]
  rfl

theorem enterDrain_occupied {s : State} (h : s.drained = false) : s.enterDrain = s.draining := by
  rw [enterDrain_eq]
  refine if_neg ?_
  rw [draining_drained, h]
  simp

/-- What a STOP_LINE with nothing on the line leaves (R75, R176, R177). -/
structure Stopped (s t : State) : Prop where
  state   : t.run.state = .config
  stands  : t.run.reasons.notRunning = true
  gauge   : t.gauge = .idle
  commit  : t.solver.commitPending = false
  active  : t.solver.active = if s.solver.commitPending then s.solver.active.other else s.solver.active
  pool    : t.pool = s.pool
  pockets : t.pockets = s.pockets
  labels  : t.labels = s.labels

theorem enterDrain_empty {s : State} (h : s.drained = true) : s.Stopped s.enterDrain := by
  have hdrained := (draining_drained s).trans h
  obtain ⟨out, q, host, hdrain⟩ := draining_changes s
  obtain ⟨q', tx', w', hoffer⟩ := offer_changes (.run .drain .config .drained 0)
    (((s.draining.modRun (fun r => { r with state := .config })).bankCommit).stopFollowing)
  have hend : s.enterDrain = (((s.draining.modRun (fun r => { r with state := .config })).bankCommit).stopFollowing).offer
      (.run .drain .config .drained 0) := by
    rw [enterDrain_eq, drainTest, if_pos ⟨by rw [hdrain], hdrained⟩, reportRun, bankCommit_changes]
    rfl
  rw [hend, hoffer, bankCommit_changes, hdrain]
  exact ⟨rfl, rfl, rfl, rfl, rfl, rfl, rfl, rfl⟩

theorem Stopped.replied {s t : State} (h : s.Stopped t) (f : Frame) (payload : List Byte) :
    s.Stopped (t.replied f payload) := by
  obtain ⟨hstate, hstands, hgauge, hcommit, hactive, hpool, hpockets, hlabels⟩ := h
  unfold State.replied
  split <;> exact ⟨hstate, hstands, hgauge, hcommit, hactive, hpool, hpockets, hlabels⟩

/-! ### CLEAR_HALT (R180) -/

theorem leaveHalt_eq (s : State) : s.leaveHalt = ({ s with
    run := { s.run with
      state := .config
      halt := .none }
    gauge := .idle
    secs := Vector.ofFn (fun i => { s.secs[i] with awaiting := none })
    cuts := { s.cuts with
      lastTongue := none
      lastGroove := none } } : State).offer (.run .halt .config .clearHalt 0) := rfl

/-! ### HALT does not look at the host link -/

theorem HaltedFrom.of_arrived {s t : State} {f : Frame} {reason : HaltReason} {cause : RunCause}
    (h : (s.arrived f).HaltedFrom t reason cause) : s.HaltedFrom t reason cause := h

theorem HaltedFrom.withHost {s t : State} {reason : HaltReason} {cause : RunCause} (h : s.HaltedFrom t reason cause)
    (host : HostLink) : s.HaltedFrom { t with host := host } reason cause := h

theorem HaltedFrom.replied {s t : State} {reason : HaltReason} {cause : RunCause} (h : s.HaltedFrom t reason cause)
    (f : Frame) (payload : List Byte) : s.HaltedFrom (t.replied f payload) reason cause := by
  unfold State.replied
  split
  · exact h.withHost _
  · exact h.withHost _

end State

/-- Settles O55: START_LINE goes by the run state and what is set; STOP_LINE by the run state and what is on the line. -/
theorem startAndStopLine : Obligations.StartAndStopLine := by
  intro s id empty complete running lifted
  have hcomplete : complete → ∀ f, (s.arrived f).missingItem = none := fun ⟨graded, distances, saw, commit, regrade,
    overflow, kickers⟩ f => missingItem_eq_none (s := s.arrived f) graded distances saw commit regrade overflow kickers
  have hstate : ∀ f st, s.run.state = st → (s.arrived f).run.state = st := fun _ _ h => h
  refine ⟨fun c h => ?config, fun c h => ?drain, fun h => ?run, fun h strips => ?stop, fun h bare => ?passes, fun h => ?stopped⟩
  case config =>
    refine exec_handled rfl rfl (answer_startLine id _) rfl empty rfl (by simp [h]) ?_
    simp only [hstate _ _ h, hcomplete c, enterRun_eq]
    rfl
  case drain =>
    refine exec_handled rfl rfl (answer_startLine id _) rfl empty rfl (by simp [h]) ?_
    simp only [hstate _ _ h, hcomplete c, returnToRun_eq]
    rfl
  case run =>
    refine exec_handled rfl rfl (answer_startLine id _) rfl empty rfl (by simp [h]) ?_
    simp only [hstate _ _ h]
    rfl
  case stop =>
    refine exec_handled rfl rfl (answer_stopLine id _) rfl empty rfl (by simp [running_iff.mpr (.inl h)]) ((if_pos h).trans ?_)
    exact Prod.ext (enterDrain_occupied (s := s.arrived _) strips) rfl
  case passes =>
    refine ⟨s.taken 0x11 id [] enterDrain [0], ?_, ?_⟩
    · exact exec_handled rfl rfl (answer_stopLine id _) rfl empty rfl (by simp [running_iff.mpr (.inl h)]) (if_pos h)
    · obtain ⟨hstate, hstands, hgauge, hcommit, hactive, hpool, hpockets, hlabels⟩ :=
        (enterDrain_empty (s := s.arrived ⟨0x11, id, []⟩) bare).replied ⟨0x11, id, []⟩ [0]
      exact ⟨hstate, hstands, hgauge, hcommit, hactive, hpool, hpockets, hlabels⟩
  case stopped =>
    have hrun : (s.arrived ⟨0x11, id, []⟩).run.state ≠ .run := by simp [h]
    exact exec_handled rfl rfl (answer_stopLine id _) rfl empty rfl (by simp [running_iff.mpr (.inr h)]) (if_neg hrun)

/-- Settles O56: HALT_LINE enters HALT from any other state, CLEAR_HALT leaves it for CONFIG. -/
theorem haltAndClearHalt : Obligations.HaltAndClearHalt := by
  refine ⟨fun s id empty => ⟨fun awake lists => ?halts, fun h => ?already⟩, fun s id empty => ⟨fun h => ?clears, fun h => ?refused⟩⟩
  case halts =>
    refine ⟨s.taken 0x12 id [] (fun u => u.enterHalt .host .haltLine) [0], ?_, ?_⟩
    · exact exec_handled rfl rfl (answer_haltLine id _) rfl empty rfl (by simp) (if_neg awake)
    · exact ((enterHalt_haltedFrom (s := s.arrived ⟨0x12, id, []⟩) lists _ _).of_arrived).replied _ _
  case already => exact exec_handled rfl rfl (answer_haltLine id _) rfl empty rfl (by simp) (if_pos h)
  case clears =>
    refine exec_handled rfl rfl (answer_clearHalt id _) rfl empty rfl (by simp [h]) (Prod.ext ?_ rfl)
    exact leaveHalt_eq _
  case refused =>
    refine exec_refused rfl rfl (answer_clearHalt id _) rfl empty rfl (st := .wrongState) ?_
    simp [firstFail, h]

end Sys2Proof.Machine
end

section
/-! CLOSE_POCKET, HOLD_POCKET, RELEASE_POCKET and CLEAR_POCKET (R146 to R150). -/

namespace Sys2Proof.Machine

open State

/-! ### The pocket a request names -/

theorem number_toByte (k : Fin 12) (p : List Byte) : u8 (toByte k.val :: p) 0 = k.val :=
  toByte_toNat (by omega)

theorem pocket_toByte (k : Fin 12) (p : List Byte) : Fin.ofNat 12 (u8 (toByte k.val :: p) 0) = k :=
  fin_of_u8 (number_toByte k p)

namespace State

/-! ### Pockets under reports and changes of their own -/

@[simp] theorem offer_pocket (r : Report) (k : Fin 12) (s : State) : (s.offer r).pocket k = s.pocket k := by
  obtain ⟨q, tx, w, hoffer⟩ := offer_changes r s
  rw [hoffer]
  rfl

theorem modPocket_congr {k : Fin 12} {f g : Pocket → Pocket} {s : State} (h : f (s.pocket k) = g (s.pocket k)) :
    s.modPocket k f = s.modPocket k g := by
  unfold modPocket
  exact congrArg (fun x => { s with pockets := s.pockets.set k x }) h

theorem closingTest_of_reservations {k : Fin 12} {b : Bundle} {s : State} (bundle : (s.pocket k).bundle = some b)
    (reserved : b.reservations ≠ 0) : s.closingTest k = s := by
  unfold closingTest
  rw [bundle]
  split
  case h_1 _ _ _ h =>
    cases h
    exact if_neg fun hfree => reserved hfree.2
  case h_2 => rfl

/-- A bundle enters CLOSING, before its closing test. -/
theorem closeBundle_eq {k : Fin 12} {b : Bundle} {s : State} (bundle : (s.pocket k).bundle = some b) (reason : CloseReason) :
    s.closeBundle k reason = ((s.modPocket k (fun y => { y with
        state := .closing
        bundle := some { b with closeReason := reason } })).offer
      ({ s.pocket k with bundle := some { b with closeReason := reason } }.report k (s.pocket k).state .closing .closing 0)
      ).closingTest k := by
  have hmod : s.modPocket k (fun y => { y with
        bundle := y.bundle.map (fun x => { x with closeReason := reason })
        state := .closing }) = s.modPocket k (fun y => { y with
        state := .closing
        bundle := some { b with closeReason := reason } }) := modPocket_congr (by simp [bundle])
  rw [closeBundle, modBundle, movePocket_modPocket, hmod, bundle]
  rfl

/-- A bundle with reservations stays in CLOSING. -/
theorem closeBundle_reserved {k : Fin 12} {b : Bundle} {s : State} (bundle : (s.pocket k).bundle = some b)
    (reserved : b.reservations ≠ 0) (reason : CloseReason) :
    s.closeBundle k reason = (s.modPocket k (fun y => { y with
        state := .closing
        bundle := some { b with closeReason := reason } })).offer
      ({ s.pocket k with bundle := some { b with closeReason := reason } }.report k (s.pocket k).state .closing .closing 0) := by
  rw [closeBundle_eq bundle]
  exact closingTest_of_reservations (b := { b with closeReason := reason }) (by simp) reserved

theorem holdPocket_eq (k : Fin 12) (s : State) : s.holdPocket k = (s.modPocket k (fun y => { y with
      state := .stalled
      prior := some (s.pocket k).state
      bundle := (s.pocket k).bundle.map Bundle.leaveWait })).offer
    ((s.pocket k).report k (s.pocket k).state .stalled .held 0) := by
  have hmod : s.modPocket k (fun y => { y with
        prior := some y.state
        bundle := y.bundle.map Bundle.leaveWait
        state := .stalled }) = s.modPocket k (fun y => { y with
        state := .stalled
        prior := some (s.pocket k).state
        bundle := (s.pocket k).bundle.map Bundle.leaveWait }) := modPocket_congr rfl
  have hreport : { s.pocket k with
        prior := some (s.pocket k).state
        bundle := (s.pocket k).bundle.map Bundle.leaveWait }.report k (s.pocket k).state .stalled .held 0
      = (s.pocket k).report k (s.pocket k).state .stalled .held 0 := by
    unfold Pocket.report
    cases (s.pocket k).bundle <;> rfl
  rw [holdPocket, movePocket_modPocket, hmod, hreport]

theorem releasePocket_lost {k : Fin 12} {s : State} (stalled : (s.pocket k).state = .stalled) (lost : (s.pocket k).lost = true) :
    s.releasePocket k = (s.modPocket k (fun y => { y with
        state := .empty
        prior := none
        lost := false
        bundle := none
        count := 0 })).offer (.pocket k (s.pocket k).cfg.isBin .stalled .empty .released .none 0 0 0) := by
  rw [releasePocket, if_pos lost, movePocket_modPocket, stalled]
  rfl

theorem releasePocket_prior {k : Fin 12} {st : PocketState} {s : State} (stalled : (s.pocket k).state = .stalled)
    (kept : (s.pocket k).lost = false) (prior : (s.pocket k).prior = some st) :
    s.releasePocket k = ((s.modPocket k (fun y => { y with
        state := st
        prior := none })).offer ((s.pocket k).report k .stalled st .released 0)).closingTest k := by
  rw [releasePocket, if_neg (by simp [kept]), movePocket_modPocket, stalled, prior]
  rfl

theorem releasePocket_quiet {k : Fin 12} {st : PocketState} {s : State} (stalled : (s.pocket k).state = .stalled)
    (kept : (s.pocket k).lost = false) (prior : (s.pocket k).prior = some st) (open' : st ≠ .closing) :
    s.releasePocket k = (s.modPocket k (fun y => { y with
        state := st
        prior := none })).offer ((s.pocket k).report k .stalled st .released 0) := by
  rw [releasePocket_prior stalled kept prior]
  exact closingTest_of_state (by simpa using open')

/-! ### Clearing (R150) -/

theorem clearBin_eq (k : Fin 12) (s : State) : s.clearBin k = (s.modPocket k (fun y => { y with
      state := .empty
      count := 0 })).offer ({ s.pocket k with count := 0 }.report k (s.pocket k).state .empty .cleared 0) := by
  rw [clearBin, movePocket_modPocket]

section Labelled

variable {k : Fin 12} {b : Bundle} {e : LabelEntry} {s : State} (bundle : (s.pocket k).bundle = some b)
  (label : b.label = .labelled e.serial) (entry : s.labelEntry e.serial = some e)

include bundle label

theorem labelSerial_eq : s.labelSerial k = e.serial := by
  rw [labelSerial, bundle]
  exact congrArg LabelState.serial label

include entry

theorem labelDone_eq : s.labelDone k = (decide (e.status = .printed) || decide (e.status = .skipped)) := by
  rw [labelDone, labelSerial_eq bundle label, entry]

end Labelled

/-- An entry that the channel has no part in just leaves the queue (R170). -/
theorem removeEntry_idle {e : LabelEntry} {s : State} (entry : s.labelEntry e.serial = some e)
    (rests : e.status = .printed ∨ e.status = .skipped ∨ e.status = .queued
      ∨ (e.status = .failed ∧ s.labels.faultEntry ≠ some e.serial)) :
    s.removeEntry e.serial
      = s.modLabels (fun c => { c with queue := c.queue.filter (fun x => decide (x.serial ≠ e.serial)) }) := by
  unfold removeEntry
  rw [entry]
  rcases rests with h | h | h | ⟨h, hfault⟩ <;> simp only [h]
  rw [if_neg hfault]

theorem clearBundle_eq {k : Fin 12} {e : LabelEntry} {s : State} (closed : (s.pocket k).state = .closed)
    (entry : s.labelEntry e.serial = some e) (rests : e.status = .printed ∨ e.status = .skipped ∨ e.status = .queued
      ∨ (e.status = .failed ∧ s.labels.faultEntry ≠ some e.serial)) :
    s.clearBundle k e.serial = (({ s.modPocket k (fun y => { y with
        state := .empty
        bundle := none }) with
      labels := { s.labels with queue := s.labels.queue.filter (fun y => decide (y.serial ≠ e.serial)) } } : State).offer
        ((s.pocket k).report k .closed .empty .cleared 0)).grant := by
  rw [clearBundle, removeEntry_idle entry rests, closed]
  rfl

/-! ### The requests on the pocket that they name -/

theorem takeClosePocket_toByte (k : Fin 12) (s : State) : s.takeClosePocket [toByte k.val]
    = handle 1 [(decide (12 ≤ u8 [toByte k.val] 0), .noSuch),
        ((s.pocket k).cfg.isBin || decide ((s.pocket k).state ≠ .filling), .wrongState)]
      (fun s => okay (s.closeBundle k .host)) [toByte k.val] s := by
  simp only [takeClosePocket, pocket_toByte]

theorem takeHoldPocket_toByte (k : Fin 12) (s : State) : s.takeHoldPocket [toByte k.val]
    = handle 1 [(decide (12 ≤ u8 [toByte k.val] 0), .noSuch),
        (decide ((s.pocket k).state = .offline) || decide ((s.pocket k).state = .stalled), .wrongState)]
      (fun s => okay (s.holdPocket k)) [toByte k.val] s := by
  simp only [takeHoldPocket, pocket_toByte]

theorem takeReleasePocket_toByte (k : Fin 12) (s : State) : s.takeReleasePocket [toByte k.val]
    = handle 1 [(decide (12 ≤ u8 [toByte k.val] 0), .noSuch), (decide ((s.pocket k).state ≠ .stalled), .wrongState)]
      (fun s => okay (s.releasePocket k)) [toByte k.val] s := by
  simp only [takeReleasePocket, pocket_toByte]

theorem takeClearPocket_toByte (k : Fin 12) (force : Byte) (s : State) : s.takeClearPocket [toByte k.val, force]
    = handle 2 [(decide (12 ≤ u8 [toByte k.val, force] 0), .noSuch),
        (badFlag [toByte k.val, force] 1, .badValue),
        (decide ((s.pocket k).state ≠ .closed) && !s.fullBin k, .wrongState),
        (decide ((s.pocket k).state = .closed) && !s.labelDone k && !flag [toByte k.val, force] 1, .notLabelled)]
      (fun s => if (s.pocket k).state = .closed then okay (s.clearBundle k (s.labelSerial k)) else okay (s.clearBin k))
      [toByte k.val, force] s := by
  simp only [takeClearPocket, pocket_toByte]

end State

/-- Settles O58: each request passes its checks on the pocket it names, and moves it. -/
theorem pocketRequests : Obligations.PocketRequests := by
  intro s id k empty n x
  have hx : ∀ f, (s.arrived f).pocket k = x := fun f => rfl
  refine ⟨fun b bundles filling bundle reserved => ?reserved, fun b bundles filling bundle => ?closes,
    fun used moving => ?holds, fun stalled lost => ?lost, fun st stalled kept prior open' => ?prior,
    fun stalled kept prior => ?closing, fun force bin full => ?bin, fun force b e closed bundle label entry done => ?clears,
    fun b e closed bundle label entry unprinted unskipped => ?refused⟩
  case reserved =>
    refine exec_handled rfl rfl (answer_closePocket id _) (takeClosePocket_toByte k _) empty rfl ?_ ?_
    · simp [hx, bundles, filling]
    · refine Prod.ext ((closeBundle_reserved (s := s.arrived _) bundle reserved .host).trans ?_) rfl
      rw [hx, filling]
      rfl
  case closes =>
    refine exec_handled rfl rfl (answer_closePocket id _) (takeClosePocket_toByte k _) empty rfl ?_ ?_
    · simp [hx, bundles, filling]
    · refine Prod.ext ((closeBundle_eq (s := s.arrived _) bundle .host).trans ?_) rfl
      rw [hx, filling]
      rfl
  case holds =>
    refine exec_handled rfl rfl (answer_holdPocket id _) (takeHoldPocket_toByte k _) empty rfl ?_ ?_
    · simp [hx, used, moving]
    · exact Prod.ext (holdPocket_eq k _) rfl
  case lost =>
    refine exec_handled rfl rfl (answer_releasePocket id _) (takeReleasePocket_toByte k _) empty rfl ?_ ?_
    · simp [hx, stalled]
    · exact Prod.ext (releasePocket_lost (s := s.arrived _) stalled lost) rfl
  case prior =>
    refine exec_handled rfl rfl (answer_releasePocket id _) (takeReleasePocket_toByte k _) empty rfl ?_ ?_
    · simp [hx, stalled]
    · exact Prod.ext (releasePocket_quiet (s := s.arrived _) stalled kept prior open') rfl
  case closing =>
    refine exec_handled rfl rfl (answer_releasePocket id _) (takeReleasePocket_toByte k _) empty rfl ?_ ?_
    · simp [hx, stalled]
    · exact Prod.ext (releasePocket_prior (s := s.arrived _) stalled kept prior) rfl
  case bin =>
    have hclosed : x.state ≠ .closed := by rcases full with h | h <;> simp [h]
    have hfull : ∀ f, (s.arrived f).fullBin k = true := fun f => by simp [fullBin, hx, bin, full]
    refine exec_handled rfl rfl (answer_clearPocket id _) (takeClearPocket_toByte k _ _) empty rfl ?_ ?_
    · simp [hx, hclosed, hfull]
    · simp only [hx, if_neg hclosed]
      exact Prod.ext (clearBin_eq k _) rfl
  case clears =>
    have hdone : ∀ f, (s.arrived f).labelDone k = true ∨ force = true := by
      intro f
      rw [labelDone_eq (s := s.arrived f) bundle label entry]
      rcases done with h | h | ⟨h, -⟩ <;> simp [h]
    have hrests : e.status = .printed ∨ e.status = .skipped ∨ e.status = .queued
        ∨ (e.status = .failed ∧ s.labels.faultEntry ≠ some e.serial) := by
      rcases done with h | h | ⟨-, h⟩
      · exact .inl h
      · exact .inr (.inl h)
      · exact .inr (.inr h)
    refine exec_handled rfl rfl (answer_clearPocket id _) (takeClearPocket_toByte k _ _) empty rfl ?_ ?_
    · by_cases hforce : force = true
      · simp [hx, closed, hforce]
      · have hlabelled : ∀ f, (s.arrived f).labelDone k = true := fun f => (hdone f).resolve_right hforce
        simp [hx, closed, hlabelled]
    · simp only [hx, if_pos closed, labelSerial_eq (s := s.arrived _) bundle label]
      exact Prod.ext (clearBundle_eq (s := s.arrived _) closed entry hrests) rfl
  case refused =>
    have hdone : ∀ f, (s.arrived f).labelDone k = false := fun f => by
      rw [labelDone_eq (s := s.arrived f) bundle label entry]
      simp [unprinted, unskipped]
    refine exec_refused rfl rfl (answer_clearPocket id _) (takeClearPocket_toByte k _ _) empty rfl (st := .notLabelled) ?_
    simp [firstFail, hx, closed, hdone]

end Sys2Proof.Machine
end

section
/-! PAUSE_LABELS, RESUME_LABELS, SKIP_LABEL and REPRINT_LABEL (R167 to R169). -/

namespace Sys2Proof.Machine

open State

theorem u32_be32 {n : Nat} (h : n < 4294967296) : u32 (be32 n) 0 = n := by
  simp only [u32, u16, u8, be32, List.getD, toByte]
  simp
  omega

namespace State

/-! ### The channel at IDLE (R159, R160) -/

/-- The channel stops at IDLE while STOP is asserted. -/
theorem enterIdle_stopped {s : State} (stop : s.pins.stop = true) :
    s.enterIdle = { s with labels := { s.labels with state := .stopped } } := by
  rw [enterIdle, if_pos stop]
  rfl

/-- Nothing is sent from an empty queue. -/
theorem enterIdle_empty {s : State} (go : s.pins.stop = false) (none' : s.firstQueued = none) :
    s.enterIdle = { s with labels := { s.labels with state := .idle } } := by
  rw [enterIdle, if_neg (by simp [go])]
  exact trySend_of_empty none'

theorem leaveFault_stopped {s : State} (stop : s.pins.stop = true) :
    s.leaveFault = { s with labels := { s.labels with
      state := .stopped
      faultEntry := none } } :=
  enterIdle_stopped (s := s.modLabels (fun c => { c with faultEntry := none })) stop

/-! ### PAUSE_LABELS and RESUME_LABELS by the state of the channel (R167) -/

theorem pauseLabels_rests {s : State} (h : s.labels.state = .idle ∨ s.labels.state = .stopped) :
    s.pauseLabels = { s with labels := { s.labels with state := .paused } } := by
  rcases h with h | h <;> (conv_lhs => rw [pauseLabels, h]) <;> rfl

theorem pauseLabels_busy {s : State} (h : s.labels.state = .sending ∨ s.labels.state = .awaitAck) :
    s.pauseLabels = { s with labels := { s.labels with pausePending := true } } := by
  rcases h with h | h <;> (conv_lhs => rw [pauseLabels, h]) <;> rfl

theorem pauseLabels_paused {s : State} (h : s.labels.state = .paused) : s.pauseLabels = s := by
  rw [pauseLabels, h]

theorem resumeLabels_rests {s : State} (h : s.labels.state = .idle ∨ s.labels.state = .stopped) : s.resumeLabels = s := by
  rcases h with h | h <;> rw [resumeLabels, h]

theorem resumeLabels_busy {s : State} (h : s.labels.state = .sending ∨ s.labels.state = .awaitAck) :
    s.resumeLabels = { s with labels := { s.labels with pausePending := false } } := by
  rcases h with h | h <;> (conv_lhs => rw [resumeLabels, h]) <;> rfl

theorem resumeLabels_paused {s : State} (h : s.labels.state = .paused) : s.resumeLabels = s.enterIdle := by
  rw [resumeLabels, h]

theorem resumeLabels_fault {s : State} {n : Nat} (h : s.labels.state = .fault) (fault : s.labels.faultEntry = some n) :
    s.resumeLabels = (s.modEntry n (fun e => { e with status := .queued, cause := .none, code := 0 })).leaveFault := by
  rw [resumeLabels, h]
  dsimp only
  rw [requeueFault, fault]

/-! ### SKIP_LABEL and REPRINT_LABEL by the entry (R168, R169) -/

theorem entryNotIn_eq {s : State} {n : Nat} {e : LabelEntry} (entry : s.labelEntry n = some e) (statuses : List LabelStatus) :
    s.entryNotIn n statuses = decide (e.status ∉ statuses) := by
  rw [entryNotIn, entry]

theorem skipLabel_other {s : State} {n : Nat} (other : s.labels.faultEntry ≠ some n) :
    s.skipLabel n = s.modEntry n (fun y => { y with status := .skipped }) := if_neg other

theorem skipLabel_fault {s : State} {n : Nat} (fault : s.labels.faultEntry = some n) (stop : s.pins.stop = true) :
    s.skipLabel n = ({ s with labels := { s.labels with
      state := .stopped
      faultEntry := none } } : State).modEntry n (fun y => { y with status := .skipped }) :=
  (if_pos fault).trans (leaveFault_stopped (s := s.modEntry n (fun y => { y with status := .skipped })) stop)

theorem reprintLabel_other {s : State} {n : Nat} (other : s.labels.faultEntry ≠ some n) (busy : s.labels.state ≠ .idle) :
    s.reprintLabel n = s.modEntry n (fun y => { y with
      status := .queued
      copies := s.labels.copies
      cause := .none
      code := 0
      afterStop := false }) :=
  (if_neg other).trans (trySend_of_state busy)

theorem takeSkipLabel_be32 {n : Nat} (small : n < 4294967296) (s : State) : s.takeSkipLabel (be32 n)
    = handle 4 [((s.labelEntry n).isNone, .noSuch), (s.entryNotIn n [.queued, .failed], .wrongState)]
      (fun s => okay (s.skipLabel n)) (be32 n) s := by
  simp only [takeSkipLabel, u32_be32 small]

theorem takeReprintLabel_be32 {n : Nat} (small : n < 4294967296) (s : State) : s.takeReprintLabel (be32 n)
    = handle 4 [((s.labelEntry n).isNone, .noSuch), (s.entryNotIn n [.printed, .failed, .skipped], .wrongState)]
      (fun s => okay (s.reprintLabel n)) (be32 n) s := by
  simp only [takeReprintLabel, u32_be32 small]

end State

/-- Settles O59: the four requests by the state of the channel and of the entry named. -/
theorem labelRequests : Obligations.LabelRequests := by
  intro s id empty
  refine ⟨fun h => ⟨?pauseRests, ?resumeRests⟩, fun h => ⟨?pauseBusy, ?resumeBusy⟩,
    fun h => ⟨?pausePaused, fun stop => ?resumeStopped, fun go none' => ?resumeIdle⟩, fun n h fault stop => ?resumeFault,
    fun e small entry => ?entries⟩
  case pauseRests =>
    have awake : s.labels.state ≠ .fault := by rcases h with h | h <;> simp [h]
    exact exec_handled rfl rfl (answer_pauseLabels id _) rfl empty rfl (by simp [awake]) (Prod.ext (pauseLabels_rests h) rfl)
  case resumeRests =>
    exact exec_handled rfl rfl (answer_resumeLabels id _) rfl empty rfl (by simp)
      (Prod.ext (resumeLabels_rests (s := s.arrived _) h) rfl)
  case pauseBusy =>
    have awake : s.labels.state ≠ .fault := by rcases h with h | h <;> simp [h]
    exact exec_handled rfl rfl (answer_pauseLabels id _) rfl empty rfl (by simp [awake]) (Prod.ext (pauseLabels_busy h) rfl)
  case resumeBusy =>
    exact exec_handled rfl rfl (answer_resumeLabels id _) rfl empty rfl (by simp)
      (Prod.ext (resumeLabels_busy (s := s.arrived _) h) rfl)
  case pausePaused =>
    exact exec_handled rfl rfl (answer_pauseLabels id _) rfl empty rfl (by simp [h])
      (Prod.ext (pauseLabels_paused (s := s.arrived _) h) rfl)
  case resumeStopped =>
    exact exec_handled rfl rfl (answer_resumeLabels id _) rfl empty rfl (by simp)
      (Prod.ext ((resumeLabels_paused (s := s.arrived _) h).trans (enterIdle_stopped stop)) rfl)
  case resumeIdle =>
    exact exec_handled rfl rfl (answer_resumeLabels id _) rfl empty rfl (by simp)
      (Prod.ext ((resumeLabels_paused (s := s.arrived _) h).trans (enterIdle_empty go none')) rfl)
  case resumeFault =>
    exact exec_handled rfl rfl (answer_resumeLabels id _) rfl empty rfl (by simp)
      (Prod.ext ((resumeLabels_fault (s := s.arrived _) h fault).trans (leaveFault_stopped stop)) rfl)
  case entries =>
    have hentry : ∀ f, (s.arrived f).labelEntry e.serial = some e := fun f => entry
    have hnotIn : ∀ f l, (s.arrived f).entryNotIn e.serial l = decide (e.status ∉ l) := fun f => entryNotIn_eq (hentry f)
    refine ⟨fun status other => ?skip, fun status fault stop => ?skipFault, fun status other busy => ?reprint⟩
    case skip =>
      refine exec_handled rfl rfl (answer_skipLabel id _) (takeSkipLabel_be32 small _) empty rfl ?_
        (Prod.ext (skipLabel_other (s := s.arrived _) other) rfl)
      rcases status with h | h <;> simp [hentry, hnotIn, h]
    case skipFault =>
      refine exec_handled rfl rfl (answer_skipLabel id _) (takeSkipLabel_be32 small _) empty rfl ?_
        (Prod.ext (skipLabel_fault (s := s.arrived _) fault stop) rfl)
      simp [hentry, hnotIn, status]
    case reprint =>
      refine exec_handled rfl rfl (answer_reprintLabel id _) (takeReprintLabel_be32 small _) empty rfl ?_
        (Prod.ext (reprintLabel_other (s := s.arrived _) other busy) rfl)
      have hstatus : e.status = .printed ∨ e.status = .failed ∨ e.status = .skipped := by simpa using status
      rcases hstatus with h | h | h <;> simp [hentry, hnotIn, h]

end Sys2Proof.Machine
end

section
/-! The queries, CLEAR_COUNTS and RESET (R20, R21, R152, R171, R195, R197 to R199). -/

namespace Sys2Proof.Machine

open State

theorem u16_be16 {n : Nat} (h : n < 65536) : u16 (be16 n) 0 = n := by
  simp only [u16, u8, be16, List.getD, toByte]
  simp
  omega

theorem length_flatMap_of_const {α β : Type} {f : α → List β} {n : Nat} (h : ∀ a, (f a).length = n) (l : List α) :
    (l.flatMap f).length = n * l.length := by
  rw [List.length_flatMap, List.map_congr_left fun a _ => h a]
  simp [Nat.mul_comm]

namespace State

theorem countBytes_length (s : State) : s.countBytes.length = 172 := by
  have hcounts : s.counts.length = 43 := by simp [counts, LineCounters.toList]
  rw [countBytes, length_flatMap_of_const (n := 4) (fun _ => rfl), hcounts]

/-! ### GET_LIST (R20) -/

theorem takeGetList_form (code : Byte) (s : State) : s.takeGetList [code]
    = handle 1 [(decide (4 < code.toNat), .noSuch)] (fun s => okayWith ([code, toByte (s.listOf code.toNat).length]
      ++ (s.listOf code.toNat).flatMap (fun i => toByte i.val :: be16 (s.record i).tag)) s) [code] s := by
  have hcode : toByte code.toNat = code := by simp [toByte]
  simp only [takeGetList, u8_cons_zero, hcode]
  rfl

theorem listOf_nodup {s : State} (lists : s.pool.Partitioned) : ∀ n, (s.listOf n).Nodup
  | 0 => lists.freeNodup
  | n + 1 => lists.secNodup (secOf (n + 1))

theorem listOf_length_le {s : State} (lists : s.pool.Partitioned) (n : Nat) : (s.listOf n).length ≤ 64 := by
  simpa using (listOf_nodup lists n).length_le_card

theorem tag_of_free {s : State} (lists : s.pool.Partitioned) {i : Fin 64} (h : i ∈ s.pool.free) : (s.record i).tag = 0 := by
  have hblank : s.record i = {} := lists.blank i ((lists.free i).mp h)
  rw [hblank]

/-! ### GET_STRIP and GET_POCKET -/

theorem takeGetStrip_found {tag : Fin 65536} {i : Fin 64} {s : State} (found : s.findTag tag.val = some i) :
    s.takeGetStrip (be16 tag.val) = (s, 0 :: (s.record i).bytes i) := by
  rw [takeGetStrip, handle_taken (len := 2) rfl]
  · simp only [u16_be16 tag.isLt, found]
    rfl
  · simp [u16_be16 tag.isLt, found]

theorem takeGetLabels_zero (s : State) : s.takeGetLabels [0, 0, 0, 0] = (s, 0 :: s.labelSummary) := by
  have hzero : u32 [0, 0, 0, 0] 0 = 0 := rfl
  rw [takeGetLabels, handle_taken (len := 4) rfl]
  · rw [if_pos hzero]
    rfl
  · simp only [List.mem_singleton, forall_eq, hzero]
    rfl

theorem takeGetPocket_toByte (k : Fin 12) (s : State) : s.takeGetPocket [toByte k.val]
    = handle 1 [(decide (12 ≤ u8 [toByte k.val] 0), .noSuch)] (fun s => okayWith ((s.pocket k).cfg.bytes k
      ++ [(s.pocket k).state.code, ((s.pocket k).prior.map PocketState.code).getD 0xFF, flagByte (s.pocket k).lost]
      ++ (s.pocket k).bundleBytes ++ be16 (if (s.pocket k).cfg.isBin then (s.pocket k).count else 0)
      ++ be16 (if (s.pocket k).cfg.isBin then s.pendingKicks k else 0)) s) [toByte k.val] s := by
  simp only [takeGetPocket, pocket_toByte]

end State

/-- Settles O60: each query passes its checks and replies its contents; GET_LIST goes by its code. -/
theorem queries : Obligations.Queries := by
  refine ⟨fun s id empty => ⟨?identify, ?state, fun tag i found => ?strip, fun k => ?pocket, ?labels, ?counts,
    countBytes_length s, ?clear, ?reset⟩, fun s id code empty => ⟨fun h => ?noList, ?list, fun lists i h => tag_of_free lists h⟩⟩
  case identify => exact exec_handled rfl rfl (answer_identify id _) rfl empty rfl (by simp) rfl
  case state => exact exec_handled rfl rfl (answer_getState id _) rfl empty rfl (by simp) rfl
  case strip =>
    refine exec_answered rfl rfl empty ?_
    exact takeGetStrip_found (s := s.arrived _) found
  case pocket =>
    refine exec_handled rfl rfl (answer_getPocket id _) (takeGetPocket_toByte k _) empty rfl (by simp) ?_
    simp only [arrived_pocket]
    cases (s.pocket k).prior <;> rfl
  case labels => exact exec_answered rfl rfl empty (takeGetLabels_zero _)
  case counts => exact exec_handled rfl rfl (answer_getCounts id _) rfl empty rfl (by simp) rfl
  case clear => exact exec_handled rfl rfl (answer_clearCounts id _) rfl empty rfl (by simp) rfl
  case reset => exact exec_handled rfl rfl (answer_reset id _) rfl empty rfl (by simp) rfl
  case noList =>
    refine exec_refused rfl rfl (answer_getList id _) (takeGetList_form code _) empty rfl (st := .noSuch) ?_
    simp [firstFail, h]
  case list =>
    intro h members contents
    have hmembers : s.listOf code.toNat = members := by
      simp only [members]
      generalize code.toNat = n at h
      interval_cases n <;> rfl
    have hlength : contents.length = 2 + 3 * members.length := by
      have hthree : ∀ i : Fin 64, (toByte i.val :: be16 (s.record i).tag).length = 3 := fun _ => rfl
      rw [List.length_append, length_flatMap_of_const hthree]
      rfl
    refine ⟨?_, hlength, fun h64 => by omega, fun lists => ?_⟩
    · refine exec_handled rfl rfl (answer_getList id _) (takeGetList_form code _) empty rfl (by simp [h]) ?_
      exact congrArg (fun l : List (Fin 64) => (s.arrived _, (0 : Byte) :: ([code, toByte l.length]
        ++ l.flatMap (fun i => toByte i.val :: be16 (s.record i).tag)))) hmembers
    · rw [← hmembers]
      exact listOf_length_le lists _

end Sys2Proof.Machine
end

section
/-! Refused requests, the request queue, and the ends of replies and reports (R188 to R193, R199). -/

namespace Sys2Proof.Machine

open Sys2Proof.Config

namespace State

/-! ### What a refusal leaves (R190) -/

/-- An answer that is not OK leaves the state as it was. -/
def RefusesOrActs (s : State) (a : State × List Byte) : Prop := a.2.head? ≠ some 0 → a.1 = s

theorem RefusesOrActs.of_ok {s : State} {a : State × List Byte} (ok : a.2.head? = some 0) : s.RefusesOrActs a :=
  fun h => absurd ok h

theorem RefusesOrActs.of_same {s : State} {a : State × List Byte} (same : a.1 = s) : s.RefusesOrActs a := fun _ => same

theorem RefusesOrActs.handled {s : State} {len : Nat} {checks : List (Bool × Status)} {act : State → State × List Byte}
    {p : List Byte} (h : s.RefusesOrActs (act s)) : s.RefusesOrActs (handle len checks act p s) := by
  rcases handle_cases len checks act p s with e | ⟨st, e⟩
  · rwa [e]
  · exact .of_same (by rw [e]; rfl)

/-- A request that is always acted on once its checks pass. -/
theorem RefusesOrActs.acts {s : State} {len : Nat} {checks : List (Bool × Status)} {act : State → State × List Byte}
    {p : List Byte} (ok : (act s).2.head? = some 0) : s.RefusesOrActs (handle len checks act p s) :=
  .handled (.of_ok ok)

variable (p : List Byte) (s : State)

theorem takeCommitBank_refusesOrActs : s.RefusesOrActs (s.takeCommitBank p) := by
  refine .handled ?_
  split
  · split
    · exact .of_ok rfl
    · split
      · exact .of_ok rfl
      · exact .of_same rfl
  · exact .of_ok rfl

theorem takeStartLine_refusesOrActs : s.RefusesOrActs (s.takeStartLine p) := by
  refine .handled ?_
  split
  · exact .of_ok rfl
  · exact .of_ok rfl
  · split
    · exact .of_same rfl
    · exact .of_ok rfl
  · split
    · exact .of_same rfl
    · exact .of_ok rfl

theorem takeStopLine_refusesOrActs : s.RefusesOrActs (s.takeStopLine p) := by
  refine .acts ?_
  split <;> rfl

theorem takeHaltLine_refusesOrActs : s.RefusesOrActs (s.takeHaltLine p) := by
  refine .acts ?_
  split <;> rfl

theorem takeClearPocket_refusesOrActs : s.RefusesOrActs (s.takeClearPocket p) := by
  refine .acts ?_
  split <;> rfl

theorem takeTestOutput_refusesOrActs : s.RefusesOrActs (s.takeTestOutput p) := by
  unfold takeTestOutput
  split
  · refine .acts ?_
    rfl
  · refine .acts ?_
    rfl
  · unfold takeTestTarget
    refine .acts ?_
    rfl

theorem takeGetStrip_refusesOrActs : s.RefusesOrActs (s.takeGetStrip p) := by
  refine .handled ?_
  split
  · exact .of_ok rfl
  · exact .of_same rfl

theorem takeGetLabels_refusesOrActs : s.RefusesOrActs (s.takeGetLabels p) := by
  refine .handled ?_
  split
  · exact .of_ok rfl
  · split
    · exact .of_ok rfl
    · exact .of_same rfl

end State

open State

/-- Settles O46: a request that is not refused by its checks is replied OK, but for those that look at the state again. -/
theorem refusedRequestsChangeNothing : Obligations.RefusedRequestsChangeNothing := by
  intro f s
  show s.RefusesOrActs (s.answer f)
  unfold answer
  split
  case h_9 => exact takeCommitBank_refusesOrActs _ s
  case h_15 => exact takeStartLine_refusesOrActs _ s
  case h_16 => exact takeStopLine_refusesOrActs _ s
  case h_17 => exact takeHaltLine_refusesOrActs _ s
  case h_21 => exact takeTestOutput_refusesOrActs _ s
  case h_25 => exact takeClearPocket_refusesOrActs _ s
  case h_32 => exact takeGetStrip_refusesOrActs _ s
  case h_34 => exact takeGetLabels_refusesOrActs _ s
  case h_38 => exact .of_same rfl
  all_goals
    refine .acts ?_
    rfl

/-! ### The request queue (R188, R189) -/

theorem isRequest_iff (f : Frame) : isRequest f = true ↔ f.kind ≠ 0 ∧ f.kind.toNat ≤ 0x3F := by
  have hzero : f.kind = 0 ↔ f.kind.toNat = 0 := byte_eq_iff 0 (by decide)
  rw [isRequest, Bool.and_eq_true, decide_eq_true_iff, decide_eq_true_iff, Ne, hzero]
  omega

namespace State

theorem hostArrive_noRequest {f : Frame} (h : isRequest f = false) (s : State) : s.hostArrive f
    = { s with host := { s.host with
        rxHost := .hunting
        frameErr := s.host.frameErr + 1 } } := by
  rw [hostArrive, if_neg (by simp [h])]
  rfl

theorem hostArrive_behind {f : Frame} {s : State} (h : isRequest f = true) (some' : s.host.requests ≠ [])
    (room : s.host.requests.length < 4) : s.hostArrive f = { s with host := { s.host with
        rxHost := .hunting
        requests := s.host.requests ++ [f] } } := by
  rw [hostArrive, if_pos h, if_pos room, queueRequest, if_neg (by simpa [modHost] using some')]
  rfl

theorem hostArrive_dropped {f : Frame} {s : State} (h : isRequest f = true) (full : 4 ≤ s.host.requests.length) :
    s.hostArrive f = { s with host := { s.host with
        rxHost := .hunting
        overrun := s.host.overrun + 1 } } := by
  rw [hostArrive, if_pos h, if_neg (show ¬ s.host.requests.length < nRequests by simpa using full)]
  rfl

/-- A kind that names no request is refused (R190). -/
theorem answer_unassigned {kind : Byte} (h : unassigned kind = true) (id : Byte) (p : List Byte) (s : State) :
    s.answer ⟨kind, id, p⟩ = refuse .unknownKind s := by
  have hnone : ∀ n, kind.toNat = n → toByte n ∉ assignedKinds := by
    rintro n rfl
    have hkind : toByte kind.toNat = kind := by simp [toByte]
    rw [hkind]
    simp only [unassigned, Bool.and_eq_true, decide_eq_true_iff] at h
    exact h.2
  unfold answer
  split
  case h_38 => rfl
  all_goals
    rename_i hkind
    exact absurd (by decide) (hnone _ hkind)

end State

/-- Settles O43: what becomes of a frame goes by its kind and by the requests held. -/
theorem hostFramesQueued : Obligations.HostFramesQueued := by
  intro s kind id p heard
  have hrequest := isRequest_iff ⟨kind, id, p⟩
  refine ⟨fun h => ?noRequest, fun h0 h3f one three => ?behind, fun h0 h3f four => ?dropped, fun h empty => ?unassigned⟩
  case noRequest =>
    have hno : isRequest ⟨kind, id, p⟩ = false := by
      rw [Bool.eq_false_iff, Ne, hrequest]
      rintro ⟨h0, h3f⟩
      rcases h with h | h
      · exact h0 h
      · exact absurd h (Nat.not_le.mpr (Nat.lt_succ_of_le h3f))
    exact congrArg _ (hostArrive_noRequest hno s)
  case behind =>
    exact congrArg _ (hostArrive_behind (hrequest.mpr ⟨h0, h3f⟩) (List.ne_nil_of_length_pos one) (by omega))
  case dropped => exact congrArg _ (hostArrive_dropped (hrequest.mpr ⟨h0, h3f⟩) four)
  case unassigned =>
    have hkind : isRequest ⟨kind, id, p⟩ = true := by
      simp only [unassigned, Bool.and_eq_true] at h
      exact Bool.and_eq_true _ _ ▸ h.1
    exact ⟨exec_answered rfl hkind empty (answer_unassigned h id p _), exec_answered rfl hkind empty (answer_unassigned h id p _)⟩

/-! ### The ends of replies and reports (R189, R191, R193, R199) -/

namespace State

/-- The arbiter without a waiting reply. -/
theorem txIdle_of_no_reply {s : State} (none' : s.host.waiting = none) : s.txIdle = { s with host := { s.host with
    tx := if s.reports.queue = [] then .idle else .report } } := by
  by_cases h : s.reports.queue = []
  · simp [txIdle, arbitrate, modHost, none', h]
  · simp [txIdle, arbitrate, modHost, none', h]

theorem txIdle_of_reply {s : State} {f : Frame} (reply : s.host.waiting = some f) : s.txIdle = { s with host := { s.host with
    tx := .reply f
    waiting := none } } := by
  simp [txIdle, arbitrate, modHost, reply]

theorem replySent_of_other {s : State} {f : Frame} (sent : s.host.tx = .reply f) (other : f.kind ≠ 0x95 ∨ f.payload ≠ [0]) :
    s.replySent = ((s.modHost (fun h => { h with requests := h.requests.tail })).takeHead).txIdle := by
  have hother : isResetReply f = false := by
    rw [isResetReply, Bool.and_eq_false_iff, decide_eq_false_iff_not, decide_eq_false_iff_not]
    exact other
  rw [replySent, sent]
  simp only [hother]
  rfl

theorem replySent_reset {s : State} {f : Frame} (sent : s.host.tx = .reply f) (kind : f.kind = 0x95) (ok : f.payload = [0]) :
    s.replySent = s.softReset := by
  rw [replySent, sent]
  simp [isResetReply, Status.code, kind, ok]

/-- A request taken while a frame is sent has its reply wait (R189, R191). -/
theorem takeRequest_busy {s : State} (busy : s.host.tx ≠ .idle) (f : Frame) : s.takeRequest f
    = { (s.answer f).1 with host := { (s.answer f).1.host with waiting := some ⟨f.kind + 0x80, f.id, (s.answer f).2⟩ } } := by
  have hbusy : (s.answer f).1.host.tx ≠ .idle := by
    rw [(answer_calm Calm.rfl').sending busy]
    exact busy
  rw [takeRequest, handReply]
  exact arbitrate_of_busy hbusy

end State

/-- Settles O44: the end of a reply takes the next request and starts its reply; the end of a report goes by what waits. -/
theorem framesSent : Obligations.FramesSent := by
  refine ⟨fun s f sent => ⟨fun other => ⟨fun r one quiet => ?last, fun r q rest more => ?next⟩, fun kind ok => ?reset⟩,
    fun s r rest sent queue => ⟨fun f reply => ?reply, fun quiet => ?report⟩⟩
  case last =>
    refine congrArg _ ((replySent_of_other sent other).trans ?_)
    simp only [modHost, one, List.tail_cons, takeHead]
    exact txIdle_of_no_reply quiet
  case next =>
    refine congrArg _ ((replySent_of_other sent other).trans ?_)
    simp only [modHost, more, List.tail_cons, takeHead]
    rw [takeRequest_busy (by simp [sent])]
    exact txIdle_of_reply rfl
  case reset => exact congrArg _ (replySent_reset sent kind ok)
  case reply =>
    have hsent : s.reportSent = ({ s with reports := { s.reports with queue := s.reports.queue.tail } } : State).txIdle := by
      rw [reportSent, sent]
    refine congrArg _ (hsent.trans ?_)
    rw [txIdle_of_reply (by exact reply), queue]
    rfl
  case report =>
    have hsent : s.reportSent = ({ s with reports := { s.reports with queue := s.reports.queue.tail } } : State).txIdle := by
      rw [reportSent, sent]
    refine congrArg _ (hsent.trans ?_)
    rw [txIdle_of_no_reply (by exact quiet), queue]
    rfl

end Sys2Proof.Machine
end

section
/-! Reception on the links (R52, R163, R187). -/

namespace Sys2Proof.Machine

open Sys2Proof.Config

theorem u32_be32_append {n : Nat} (h : n < 4294967296) (rest : List Byte) : u32 (be32 n ++ rest) 0 = n :=
  u32_be32 h

theorem isPrinterAnswer_iff (kind : Byte) (p : List Byte) : isPrinterAnswer kind p = true
    ↔ (kind = 0x11 ∧ p.length = 4) ∨ (kind = 0x12 ∧ p.length = 5) := by
  simp only [isPrinterAnswer, Bool.or_eq_true, Bool.and_eq_true, decide_eq_true_iff]

namespace State

/-! ### A frame byte by byte -/

section Bytes

variable {link : Link} {s : State} (hunting : s.receiver link = .hunting)

include hunting

theorem takeBytes_start (bytes : List LineByte) :
    s.takeBytes link (.good 0x5A :: bytes) = (s.setReceiver link (.receiving [])).takeBytes link bytes := by
  rw [takeBytes_cons, takeByte_start hunting]

/-- A length above 240 fails the frame. -/
theorem takeBytes_longLength {b : Byte} (h : 240 < b.toNat) :
    s.takeBytes link [.good 0x5A, .good b] = s.linkError link none := by
  have hlong : maxPayload < b.toNat := h
  rw [takeBytes_start hunting, takeBytes_cons, takeBytes_nil]
  simp [takeByte, Receiver.take, Receiver.takeGood, hlong, failedHead]

/-- The bytes of a frame but for its last are held. -/
theorem takeBytes_begun {n : Byte} {rest : List Byte} (small : n.toNat ≤ 240) (short : rest.length < n.toNat + 4) :
    s.takeBytes link (.good 0x5A :: (n :: rest).map .good) = s.setReceiver link (.receiving (n :: rest)) := by
  have hlength : (s.setReceiver link (.receiving [])).takeByte link (.good n) = s.setReceiver link (.receiving [n]) := by
    have hsmall : ¬ maxPayload < n.toNat := Nat.not_lt.mpr small
    simp [takeByte, Receiver.take, Receiver.takeGood, hsmall]
  rw [takeBytes_start hunting, List.map_cons, takeBytes_cons, hlength,
    takeBytes_keeps link n rest [] _ (by simpa using short) (receiver_setReceiver ..), setReceiver_setReceiver]
  rfl

end Bytes

section Frames

variable {link : Link} {s : State} {f : Frame} (hunting : s.receiver link = .hunting) (fits : f.payload.length ≤ 240)

include fits in
theorem lengthByte_toNat : (toByte f.payload.length).toNat = f.payload.length := toByte_toNat (by omega)

include hunting fits

/-- The first bytes of a frame and its CRC, whatever bytes stand for it, are held. -/
theorem takeBytes_prefix (crc : List Byte) {m : Nat} (h : m < f.payload.length + 5) :
    s.takeBytes link (.good 0x5A :: ((f.covered ++ crc).take m).map .good)
      = s.setReceiver link (.receiving ((f.covered ++ crc).take m)) := by
  cases m with
  | zero => exact takeBytes_start hunting []
  | succ m =>
    refine takeBytes_begun hunting ?_ ?_
    · rw [lengthByte_toNat fits]
      exact fits
    · rw [lengthByte_toNat fits, List.length_take]
      omega

/-- The last byte of a frame received to its end. -/
theorem takeBytes_ended (c d : Byte) : s.takeBytes link (.good 0x5A :: (f.covered ++ [c, d]).map .good)
    = if [c, d] = be16 (crc16 f.covered).toNat then s.frameArrives link f
      else s.linkError link (readableHead f.kind f.payload) := by
  have hheld : s.takeBytes link (.good 0x5A :: (f.covered ++ [c]).map .good)
      = s.setReceiver link (.receiving (f.covered ++ [c])) := by
    refine takeBytes_begun hunting ?_ ?_
    · rw [lengthByte_toNat fits]
      exact fits
    · rw [lengthByte_toNat fits]
      simp
  have hend : Receiver.takeGood (f.covered ++ [c]) d = (.hunting, received (f.covered ++ [c, d])) := by
    have happ : f.covered ++ [c, d] = f.covered ++ [c] ++ [d] := by simp
    rw [happ]
    exact takeGood_ends _ d _ (by rw [lengthByte_toNat fits]; simp)
  have hsplit : (.good 0x5A :: (f.covered ++ [c, d]).map .good : List LineByte)
      = (.good 0x5A :: (f.covered ++ [c]).map .good) ++ [.good d] := by simp
  rw [hsplit, takeBytes_append, hheld, takeBytes_cons, takeBytes_nil, takeByte, receiver_setReceiver, Receiver.take, hend,
    received_frame f fits]
  split
  case h_1 heq => split at heq <;> cases heq
  case h_2 heq =>
    split at heq <;> cases heq
    rw [if_pos ‹_›, frameArrives_setReceiver]
  case h_3 heq =>
    split at heq <;> cases heq
    rw [if_neg ‹_›, linkError_setReceiver]
    rfl

theorem takeBytes_whole : s.takeBytes link (f.bytes.map .good) = s.frameArrives link f :=
  (takeBytes_ended hunting fits _ _).trans (if_pos rfl)

end Frames

/-! ### Failed frames (R52, R163) -/

theorem linkError_scan_quiet {s : State} {h : Option Head} (quiet : h = none ∨ s.running = false) :
    s.linkError .scan h = { s with
      host := { s.host with rxScan := .hunting }
      scan := { s.scan with linkErr := s.scan.linkErr + 1 } } := by
  cases h with
  | none => rfl
  | some x =>
    have hrest : s.running = false := quiet.resolve_left (by simp)
    exact if_neg (ne_of_eq_of_ne hrest (by simp))

theorem linkError_scan_judged {s : State} {x : Head} (run : s.running = true) :
    s.linkError .scan (some x) = ({ s with
      host := { s.host with rxScan := .hunting }
      scan := { s.scan with linkErr := s.scan.linkErr + 1 } } : State).judged x true :=
  headFrame_judged run

theorem printerFrame_ack {s : State} {f : Frame} {n : BitVec 32} (kind : f.kind = 0x11) (payload : f.payload = be32 n.toNat) :
    s.printerFrame f = s.printerHunts.takeAck n.toNat := by
  have hanswer : isPrinterAnswer f.kind f.payload = true :=
    (isPrinterAnswer_iff _ _).mpr (.inl ⟨kind, by rw [payload]; rfl⟩)
  rw [printerFrame, if_pos hanswer, if_pos kind, payload, u32_be32 n.isLt]

theorem printerFrame_nak {s : State} {f : Frame} {n : BitVec 32} {code : Byte} (kind : f.kind = 0x12)
    (payload : f.payload = be32 n.toNat ++ [code]) : s.printerFrame f = s.printerHunts.takeNak n.toNat code := by
  have hanswer : isPrinterAnswer f.kind f.payload = true :=
    (isPrinterAnswer_iff _ _).mpr (.inr ⟨kind, by rw [payload]; rfl⟩)
  have hother : f.kind ≠ 0x11 := by
    rw [kind]
    decide
  rw [printerFrame, if_pos hanswer, if_neg hother, payload, u32_be32_append n.isLt]
  rfl

theorem exec_printerMalformedFrame {kind : Byte} {p : List Byte} (noAck : ¬ (kind = 0x11 ∧ p.length = 4))
    (noNak : ¬ (kind = 0x12 ∧ p.length = 5)) (id : Byte) (s : State) :
    exec (.printerMalformedFrame kind id p) s = .next s.printerError :=
  congrArg _ (if_neg fun h => ((isPrinterAnswer_iff _ _).mp h).elim noAck noNak)

theorem printerFrame_malformed {s : State} {f : Frame} (noAck : ¬ (f.kind = 0x11 ∧ f.payload.length = 4))
    (noNak : ¬ (f.kind = 0x12 ∧ f.payload.length = 5)) : s.printerFrame f = s.printerError :=
  if_neg fun h => ((isPrinterAnswer_iff _ _).mp h).elim noAck noNak

end State

open State

/-- Settles O42: a frame is taken byte by byte; its end, a failure and a gap do what the link's owner does with them. -/
theorem reception : Obligations.Reception := by
  refine ⟨fun s link b hunting => ⟨fun h => ?byte, ?error, ?gap, ?start⟩, ?frames, fun s link b hunting h => ?long,
    fun s t link first rest h => ?burst, fun s h => ⟨rfl, ⟨rfl, fun kind id p noAck noNak => ?malformed⟩,
      linkError_scan_quiet, ?judged⟩⟩
  case byte => exact congrArg _ (takeByte_hunting hunting fun k => h (by injection k))
  case error => exact congrArg _ (takeByte_hunting hunting (by simp))
  case gap => exact congrArg _ (gap_hunting hunting)
  case start => exact congrArg _ (takeByte_start hunting)
  case long => exact congrArg _ (takeBytes_longLength hunting h)
  case burst =>
    obtain rfl : s.takeBytes link first = t := by injection h
    have hbytes := takeBytes_append link first rest s
    exact ⟨congrArg _ hbytes, congrArg (fun u : State => Host.Outcome.next (u.gap link)) hbytes⟩
  case malformed => exact exec_printerMalformedFrame noAck noNak id s
  case judged =>
    rintro x rfl run
    exact linkError_scan_judged run
  case frames =>
    intro s link f hunting fits arriving whole
    have hwhole : whole = .next (s.frameArrives link f) := by
      refine congrArg Host.Outcome.next ?_
      simp only [arriving, List.take_length]
      exact takeBytes_whole hunting fits
    refine ⟨?_, fun n one short => ?held, fun c d wrong => ?crc⟩
    · cases link with
      | host => exact hwhole
      | scan => exact hwhole
      | printer =>
        refine ⟨fun n kind payload => ?_, fun n code kind payload => ?_, fun noAck noNak => ?_⟩
        · exact hwhole.trans (congrArg _ (printerFrame_ack kind payload))
        · exact hwhole.trans (congrArg _ (printerFrame_nak kind payload))
        · exact hwhole.trans ((congrArg _ (printerFrame_malformed noAck noNak)).trans
            (exec_printerMalformedFrame noAck noNak _ s).symm)
    case held =>
      obtain ⟨m, rfl⟩ : ∃ m, n = m + 1 := ⟨n - 1, by omega⟩
      have hm : m < f.payload.length + 5 := by
        simp [Frame.bytes, Frame.covered] at short
        omega
      have hheld : s.takeBytes link (arriving (m + 1)) = s.setReceiver link (.receiving (f.bytes.take (m + 1)).tail) :=
        takeBytes_prefix hunting fits _ hm
      refine ⟨congrArg _ hheld, congrArg Host.Outcome.next ?_, congrArg Host.Outcome.next ?_⟩
      · rw [takeBytes_append, hheld, takeBytes_cons, takeBytes_nil, takeByte_error (receiver_setReceiver ..),
          linkError_setReceiver]
      · show (s.takeBytes link (arriving (m + 1))).gap link = _
        rw [hheld, gap_receiving (receiver_setReceiver ..), linkError_setReceiver]
    case crc => exact congrArg _ ((takeBytes_ended hunting fits c d).trans (if_neg wrong))

end Sys2Proof.Machine
end

section
/-! The pocket-clear inputs and the label channel (R149, R150, R159 to R166). -/

namespace Sys2Proof.Machine

namespace State

/-! ### A clear edge by the state of the pocket (R150) -/

theorem clearEdge_quiet {s : State} {p : Fin 12} (h : (s.pocket p).state ∈ [PocketState.offline, .empty, .closing, .stalled]) :
    s.clearEdge p = s := by
  simp only [List.mem_cons, List.not_mem_nil, or_false] at h
  rcases h with h | h | h | h <;> simp only [clearEdge, h]

theorem clearEdge_bin {s : State} {p : Fin 12} (bin : (s.pocket p).cfg.isBin = true)
    (h : (s.pocket p).state ∈ [PocketState.filling, .full]) : s.clearEdge p = s.clearBin p := by
  simp only [List.mem_cons, List.not_mem_nil, or_false] at h
  rcases h with h | h <;> simp only [clearEdge, h, bin, if_true]

theorem clearEdge_noBin {s : State} {p : Fin 12} (bundles : (s.pocket p).cfg.isBin = false)
    (h : (s.pocket p).state ∈ [PocketState.filling, .full]) : s.clearEdge p = s := by
  simp only [List.mem_cons, List.not_mem_nil, or_false] at h
  rcases h with h | h <;> simp [clearEdge, h, bundles]

theorem clearEdge_unlabelled {s : State} {p : Fin 12} (closed : (s.pocket p).state = .closed) (undone : s.labelDone p = false) :
    s.clearEdge p = s.offer ((s.pocket p).report p .closed .closed .clearIgnored 0) := by
  simp [clearEdge, closed, undone]

theorem clearEdge_labelled {s : State} {p : Fin 12} (closed : (s.pocket p).state = .closed) (done : s.labelDone p = true) :
    s.clearEdge p = s.clearBundle p (s.labelSerial p) := by
  simp only [clearEdge, closed, done, if_true]

/-! ### The filter (R149) -/

theorem clearInput_returns {s : State} {p : Fin 12} {active : Bool} (h : active = s.clears[p].level) :
    s.clearInput p active = { s with
      pins := { s.pins with clears := s.pins.clears.set p active }
      clears := s.clears.set p { s.clears[p] with pending := none } } := by
  rw [clearInput, if_pos h]
  rfl

theorem clearInput_leaves {s : State} {p : Fin 12} {active : Bool} (h : active ≠ s.clears[p].level)
    (idle : s.clears[p].pending = none) : s.clearInput p active = { s with
      pins := { s.pins with clears := s.pins.clears.set p active }
      clears := s.clears.set p { s.clears[p] with pending := some (s.clock + 10) } } := by
  rw [clearInput, if_neg h, if_neg (by rw [idle]; exact Bool.false_ne_true)]
  rfl

theorem clearInput_pending {s : State} {p : Fin 12} {active : Bool} (h : active ≠ s.clears[p].level)
    (pending : s.clears[p].pending.isSome = true) : s.clearInput p active = { s with
      pins := { s.pins with clears := s.pins.clears.set p active } } := by
  rw [clearInput, if_neg h, if_pos pending]

/-- The filtered level taken, at the end of the 10 ms. -/
def clearTaken (p : Fin 12) (n : Nat) (s : State) : State := { s with
  clock := max s.clock n
  clears := s.clears.set p { level := !s.clears[p].level, pending := none } }

theorem clearHeld_eq {s : State} {p : Fin 12} {n : Nat} (pending : s.clears[p].pending = some n) :
    s.clearHeld p = if s.clears[p].level then s.clearTaken p n else (s.clearTaken p n).clearEdge p := by
  rw [clearHeld, pending]
  rfl

end State

open State

/-- Settles O37: the raw level starts and drops the 10 ms, and the level held makes a clear edge when it turns active. -/
theorem clearInputFiltered : Obligations.ClearInputFiltered := by
  intro s p
  refine ⟨?filter, ?held⟩
  case filter =>
    intro active u
    exact ⟨fun h => congrArg _ (clearInput_returns h), fun h idle => congrArg _ (clearInput_leaves h idle),
      fun h pending => congrArg _ (clearInput_pending h pending)⟩
  intro n pending u
  have hheld : exec (.clearEdge p .held) s = .next (if s.clears[p].level then u else u.clearEdge p) :=
    congrArg _ (clearHeld_eq pending)
  have hedge : s.clears[p].level = false → exec (.clearEdge p .held) s = .next (u.clearEdge p) := fun h => by
    rw [hheld, h]
    rfl
  refine ⟨fun h => ?quiet, fun rises bin h => ?bin, fun rises bundles h => ?noBin, fun rises closed undone => ?ignored,
    fun b e rises closed bundle label entry => ⟨?done, fun done => ?clears⟩⟩
  case quiet =>
    rw [hheld]
    rcases h with h | h
    · rw [if_pos h]
    · rw [clearEdge_quiet (s := u) h, ite_self]
  case bin => exact (hedge rises).trans (congrArg _ ((clearEdge_bin (s := u) bin h).trans (clearBin_eq p u)))
  case noBin => exact (hedge rises).trans (congrArg _ (clearEdge_noBin (s := u) bundles h))
  case ignored => exact (hedge rises).trans (congrArg _ (clearEdge_unlabelled (s := u) closed undone))
  case done =>
    rw [labelDone_eq bundle label entry, Bool.or_eq_true, decide_eq_true_iff, decide_eq_true_iff]
  case clears =>
    have hdone : u.labelDone p = true := by
      rw [labelDone_eq (s := u) bundle label entry, Bool.or_eq_true, decide_eq_true_iff, decide_eq_true_iff]
      exact done
    have hrests : e.status = .printed ∨ e.status = .skipped ∨ e.status = .queued
        ∨ (e.status = .failed ∧ s.labels.faultEntry ≠ some e.serial) := done.imp_right .inl
    refine (hedge rises).trans (congrArg _ ?_)
    rw [clearEdge_labelled (s := u) closed hdone, labelSerial_eq (s := u) bundle label]
    exact clearBundle_eq (s := u) closed entry hrests

/-! ### Sends (R160 to R162) -/

namespace State

theorem startSend_eq (e : LabelEntry) (s : State) : s.startSend e = ({ s with labels := { s.labels with
      state := .sending
      current := some e.serial
      prevSend := some s.clock
      permit := if s.labels.flow = FlowMode.readyPulse then false else s.labels.permit
      wire := some e.frame
      stopSeen := false } } : State).modEntry e.serial (fun x => { x with status := .sending }) := rfl

/-- A send starts: the entry is the current one, and its frame goes out. -/
theorem trySend_sends {s : State} {e : LabelEntry} (first : s.firstQueued = some e) (idle : s.labels.state = .idle)
    (wire : s.labels.wire = none) (flow : s.flowPermits = true) :
    s.trySend = ({ s with labels := { s.labels with
      state := .sending
      current := some e.serial
      prevSend := some s.clock
      permit := if s.labels.flow = FlowMode.readyPulse then false else s.labels.permit
      wire := some e.frame
      stopSeen := false } } : State).modEntry e.serial (fun x => { x with status := .sending }) :=
  (trySend_starts first idle wire flow).trans (startSend_eq e s)

theorem trySend_of_wire {s : State} (h : s.labels.wire ≠ none) : s.trySend = s := if_neg fun k => h k.2.1

theorem trySend_of_flow {s : State} (h : ¬ s.flowPermits = true) : s.trySend = s := if_neg fun k => h k.2.2

theorem flowPermits_paced {s : State} (paced : s.labels.flow = .paced) :
    s.flowPermits = true ↔ ∀ n, s.labels.prevSend = some n → n + s.labels.pace ≤ s.clock := by
  cases h : s.labels.prevSend <;> simp [flowPermits, paced, h]

/-- The entry of a serial after a change of it. -/
theorem labelEntry_modEntry {n : Nat} {f : LabelEntry → LabelEntry} {s : State} {e : LabelEntry}
    (entry : s.labelEntry n = some e) (serial : ∀ x, (f x).serial = x.serial) : (s.modEntry n f).labelEntry n = some (f e) := by
  have he : e.serial = n := by simpa using List.find?_some entry
  have hkeeps : (fun x : LabelEntry => decide (x.serial = n)) ∘ (fun x => if x.serial = n then f x else x)
      = fun x => decide (x.serial = n) := by
    funext x
    by_cases hx : x.serial = n <;> simp [hx, serial]
  show ((s.labels.queue.map _).find? _) = _
  rw [List.find?_map, hkeeps]
  exact (congrArg _ entry).trans (by simp [he])

theorem reportLabel_eq {n : Nat} {s : State} {e : LabelEntry} (entry : s.labelEntry n = some e) (event : LabelEvent) :
    s.reportLabel n event = s.offer (e.report event) := by
  rw [reportLabel, entry]

theorem transmissionEnds_sent {s : State} {f : Frame} {n : Nat} (wire : s.labels.wire = some f) (sending : s.labels.state = .sending)
    (current : s.labels.current = some n) :
    s.transmissionEnds = (s.modLabels (fun c => { c with wire := none })).awaitAnswer n := by
  rw [transmissionEnds, wire]
  simp only [sending, current]

theorem readyInput_same (s : State) : s.readyInput s.pins.ready = s := if_pos rfl

theorem readyInput_changes {s : State} {asserted : Bool} (h : asserted ≠ s.pins.ready) : s.readyInput asserted
    = if asserted then ({ s with pins := { s.pins with ready := asserted } } : State).readyRises
      else { s with pins := { s.pins with ready := asserted } } := if_neg (Ne.symm h)

/-- READY asserted. -/
def readied (s : State) : State := { s with pins := { s.pins with ready := true } }

/-- A permit given. -/
def permitted (s : State) : State := { s with labels := { s.labels with permit := true } }

theorem readyInput_rises {s : State} (h : s.pins.ready = false) : s.readyInput true = s.readied.readyRises :=
  readyInput_changes (by simp [h])

theorem readyRises_level {s : State} (flow : s.labels.flow = .readyLevel) : s.readyRises = s.trySend := by
  rw [readyRises, flow]

theorem readyRises_pulse {s : State} (flow : s.labels.flow = .readyPulse) (permit : s.labels.permit = false) :
    s.readyRises = s.permitted.trySend := by
  rw [readyRises, flow]
  simp only [permit]
  rfl

theorem readyRises_quiet {s : State}
    (h : s.labels.flow = .free ∨ s.labels.flow = .paced ∨ (s.labels.flow = .readyPulse ∧ s.labels.permit = true)) :
    s.readyRises = s := by
  rcases h with h | h | ⟨h, permit⟩ <;> rw [readyRises, h]
  simp only [permit, if_true]

end State

/-- Settles O39: a send needs an IDLE channel, a free link, the flow and a QUEUED entry; the three ways to start one. -/
theorem labelSends : Obligations.LabelSends := by
  refine ⟨?tries, fun s e idle wire first => ⟨?paced, ?pulse, ?level⟩, ?ends⟩
  case tries =>
    intro s flows
    have hflows : s.flowPermits = true ↔ flows := by
      simp only [flows]
      split
      · simp [flowPermits, *]
      · exact flowPermits_paced ‹_›
      · simp [flowPermits, *]
      · simp [flowPermits, *]
    refine ⟨fun e idle wire flow first => ?_, fun h => ?_⟩
    · exact trySend_sends first idle wire (hflows.mpr flow)
    · rcases h with h | h | h | h
      · exact trySend_of_state h
      · exact trySend_of_wire h
      · exact trySend_of_flow (mt hflows.mp h)
      · exact trySend_of_empty h
  case paced =>
    intro n paced prev clock
    have hends : s.paceEnds = (s.clockTo (n + s.labels.pace)).trySend := by
      rw [paceEnds, prev]
      exact if_pos paced
    have hflow : (s.clockTo (n + s.labels.pace)).flowPermits = true := by
      refine (flowPermits_paced (s := s.clockTo _) paced).mpr fun m hm => ?_
      obtain rfl : n = m := by injection prev.symm.trans hm
      exact Nat.le_max_right _ _
    refine congrArg _ (hends.trans ((trySend_sends (s := s.clockTo _) first idle wire hflow).trans ?_))
    rw [if_neg (by simp [clockTo, paced])]
    rfl
  case pulse =>
    intro pulse permit unready
    have hflow : s.readied.permitted.flowPermits = true := by simp [flowPermits, readied, permitted, pulse]
    have hstart := (readyInput_rises unready).trans (readyRises_pulse (s := s.readied) pulse permit)
    refine congrArg _ (hstart.trans ((trySend_sends (s := s.readied.permitted) first idle wire hflow).trans ?_))
    rw [if_pos (by exact pulse)]
    rfl
  case level =>
    intro level unready
    have hflow : s.readied.flowPermits = true := by simp [flowPermits, readied, level]
    have hstart := (readyInput_rises unready).trans (readyRises_level (s := s.readied) level)
    refine congrArg _ (hstart.trans ((trySend_sends (s := s.readied) first idle wire hflow).trans ?_))
    rw [if_neg (by simp [readied, level])]
    rfl
  case ends =>
    intro s e f wire sending current entry t
    have hentry : t.labelEntry e.serial = some { e with status := .awaitAck } :=
      labelEntry_modEntry (s := { s with labels := { s.labels with
        wire := none
        state := .awaitAck
        ackTimer := some (s.clock + s.labels.ackTimeout)
        stopSeen := false } }) entry fun _ => rfl
    refine congrArg _ ((transmissionEnds_sent wire sending current).trans ?_)
    show (if s.labels.stopSeen then t.reportLabel e.serial .sentAfterStop else t) = _
    rw [reportLabel_eq hentry]
    rfl

end Sys2Proof.Machine
end

section
/-! The printer's answers, the ack timer, STOP and READY (R159 to R166). -/

namespace Sys2Proof.Machine

namespace State

/-! ### Reports and the label channel (R191, R192) -/

/-- The offer of a report to a report queue and a host link, the other blocks as at power-on. -/
def offerTo (r : Report) (q : ReportQueue) (h : HostLink) : State :=
  ({ State.reset with reports := q, host := h } : State).offer r

/-- An offer looks at the report queue and the host link, and changes them alone. -/
theorem offer_eq (r : Report) (s : State) : s.offer r = { s with
    reports := (offerTo r s.reports s.host).reports
    host := (offerTo r s.reports s.host).host } := by
  have hmasked : ({ State.reset with reports := s.reports, host := s.host } : State).masked r = s.masked r := rfl
  have hroom : ({ State.reset with reports := s.reports, host := s.host } : State).hasRoom r = s.hasRoom r := rfl
  unfold offerTo offer arbitrate enqueueReport
  rw [hmasked, hroom]
  dsimp only
  repeat' split
  all_goals rfl

theorem offer_withLabels (c : LabelChannel) (r : Report) (s : State) :
    ({ s with labels := c } : State).offer r = { s.offer r with labels := c } := by
  rw [offer_eq, offer_eq r s]

theorem offer_labels (r : Report) (s : State) : (s.offer r).labels = s.labels := by
  obtain ⟨q, tx, w, hoffer⟩ := offer_changes r s
  rw [hoffer]

theorem offer_pins (r : Report) (s : State) : (s.offer r).pins = s.pins := by
  obtain ⟨q, tx, w, hoffer⟩ := offer_changes r s
  rw [hoffer]

/-! ### The end of an await (R165) -/

/-- A paused channel is PAUSED, and one with STOP asserted STOPPED. -/
theorem endAwait_rests {s : State} (h : s.labels.pausePending = true ∨ s.pins.stop = true) :
    s.endAwait = { s with labels := { s.labels with
      current := none
      pausePending := false
      state := if s.labels.pausePending then .paused else .stopped } } := by
  by_cases hpause : s.labels.pausePending = true
  · rw [endAwait, if_pos hpause, if_pos hpause]
    rfl
  · have hstop : s.pins.stop = true := h.resolve_left hpause
    rw [endAwait, if_neg hpause, if_neg hpause, enterIdle_stopped (by exact hstop)]
    simp only [modLabels, Bool.not_eq_true] at hpause ⊢
    rw [← hpause]

theorem endAwait_idle {s : State} (unpaused : s.labels.pausePending = false) (go : s.pins.stop = false) :
    s.endAwait = ({ s with labels := { s.labels with
      current := none
      state := .idle } } : State).trySend := by
  rw [endAwait, if_neg (by simp [unpaused]), enterIdle, if_neg (by simpa using go)]
  rfl

theorem endAwaitFailed_eq (n : Nat) (s : State) : s.endAwaitFailed n = { s with labels := { s.labels with
      current := none
      pausePending := false
      state := if s.labels.pausePending then .paused else .fault
      faultEntry := if s.labels.pausePending then s.labels.faultEntry else some n } } := by
  by_cases hpause : s.labels.pausePending = true
  · rw [endAwaitFailed, if_pos hpause, if_pos hpause, if_pos hpause]
    rfl
  · rw [endAwaitFailed, if_neg hpause, if_neg hpause, if_neg hpause]
    simp only [modLabels, Bool.not_eq_true] at hpause ⊢
    rw [← hpause]

/-! ### Answers (R163, R164) -/

theorem isMatched_iff (s : State) (n : Nat) :
    s.isMatched n = true ↔ s.labels.state = .awaitAck ∧ s.labels.current = some n := by
  rw [isMatched, Bool.and_eq_true, decide_eq_true_iff, decide_eq_true_iff]

theorem reportLabel_modEntry {n : Nat} {f : LabelEntry → LabelEntry} {s : State} {e : LabelEntry}
    (entry : s.labelEntry n = some e) (event : LabelEvent) (serial : ∀ x, (f x).serial = x.serial) :
    (s.modEntry n f).reportLabel n event = (s.modEntry n f).offer ((f e).report event) :=
  reportLabel_eq (labelEntry_modEntry entry serial) event

theorem acked_next {s : State} {n : Nat} {e : LabelEntry} (entry : s.labelEntry n = some e) (more : 1 < e.copies) :
    s.acked n = (s.stopAckTimer.modEntry n (fun x => { x with copies := x.copies - 1, status := .queued })).endAwait := by
  have hcopies : s.copiesOf n = e.copies := by rw [copiesOf, entry]
  rw [acked, if_pos (by rw [hcopies]; exact more)]

theorem acked_last {s : State} {n : Nat} {e : LabelEntry} (entry : s.labelEntry n = some e) (last : e.copies = 1) :
    s.acked n = ((s.stopAckTimer.modEntry n (fun x => { x with copies := 0, status := .printed })).offer
      (.label e.serial e.pocket .printed .printed 0 e.cause e.code e.afterStop)).endAwait := by
  have hcopies : s.copiesOf n = e.copies := by rw [copiesOf, entry]
  rw [acked, if_neg (by rw [hcopies]; omega),
    reportLabel_modEntry (s := s.stopAckTimer) entry .printed]
  · rfl
  · exact fun _ => rfl

/-- A copy that fails: the entry is FAILED and reported, and the channel stands in FAULT, or pauses. -/
theorem copyFails_eq {s : State} {n : Nat} {e : LabelEntry} (entry : s.labelEntry n = some e) (cause : FailCause) (code : Byte) :
    s.copyFails n cause code = (({ s with labels := { s.labels with
        ackTimer := none
        current := none
        pausePending := false
        state := if s.labels.pausePending then .paused else .fault
        faultEntry := if s.labels.pausePending then s.labels.faultEntry else some n } } : State).modEntry n
      (fun x => { x with status := .failed, cause := cause, code := code })).offer
        (.label e.serial e.pocket .failed .failed e.copies cause code e.afterStop) := by
  rw [copyFails, reportLabel_modEntry (s := s.stopAckTimer) entry .failed, endAwaitFailed_eq, offer_labels,
    ← offer_withLabels]
  · rfl
  · exact fun _ => rfl

theorem ackExpires_eq {s : State} {n t : Nat} (awaits : s.labels.state = .awaitAck) (current : s.labels.current = some n)
    (timer : s.labels.ackTimer = some t) : s.ackExpires = (s.clockTo t).copyFails n .timeout 0 := by
  rw [ackExpires, awaits, current, timer]

end State

open State

/-- Settles O40: an unmatched answer is counted, a matched one ends the await, and so does the ack timer. -/
theorem printerAnswers : Obligations.PrinterAnswers := by
  refine ⟨?answers, fun s n t e awaits current timer entry => ?expires⟩
  case expires =>
    exact congrArg _ ((ackExpires_eq awaits current timer).trans (copyFails_eq (s := s.clockTo t) entry .timeout 0))
  case answers =>
    intro s n code heard
    have hack : exec (.ack n) s = .next (s.printerHunts.takeAck n.toNat) := rfl
    have hnak : exec (.nak n code) s = .next (s.printerHunts.takeNak n.toNat code) := rfl
    refine ⟨fun unmatched => ?unmatched, fun e awaits current entry => ?matched⟩
    case unmatched =>
      have hno : ¬ s.printerHunts.isMatched n.toNat = true := fun h => unmatched ((isMatched_iff _ _).mp h)
      exact ⟨congrArg _ (if_neg hno), congrArg _ (if_neg hno)⟩
    case matched =>
      have hyes : s.printerHunts.isMatched n.toNat = true := (isMatched_iff _ _).mpr ⟨awaits, current⟩
      have hacked : exec (.ack n) s = .next (s.printerHunts.acked n.toNat) := congrArg _ (if_pos hyes)
      have hentry : s.printerHunts.labelEntry n.toNat = some e := entry
      refine ⟨fun rests => ?rests, fun unpaused go => ?sends, ?nak⟩
      case rests =>
        intro after
        refine ⟨fun more => ?_, fun last => ?_⟩
        · rw [hacked, acked_next hentry more, endAwait_rests (by exact rests)]
          rfl
        · rw [hacked, acked_last hentry last, endAwait_rests (by rw [offer_labels, offer_pins]; exact rests),
            offer_labels, ← offer_withLabels]
          rfl
      case sends =>
        intro after
        refine ⟨fun more => ?_, fun last => ?_⟩
        · rw [hacked, acked_next hentry more, endAwait_idle (by exact unpaused) (by exact go)]
          rfl
        · rw [hacked, acked_last hentry last, endAwait_idle (by rw [offer_labels]; exact unpaused)
            (by rw [offer_pins]; exact go), offer_labels, ← offer_withLabels]
          rfl
      case nak =>
        exact (congrArg _ (if_pos hyes)).trans (congrArg _ (copyFails_eq hentry .nak code))

/-! ### STOP (R166) -/

namespace State

/-- The level of STOP. -/
def stopped (level : Bool) (s : State) : State := { s with pins := { s.pins with stop := level } }

theorem stopInput_same (s : State) : s.stopInput s.pins.stop = s := if_pos rfl

theorem stopInput_rises {s : State} (h : s.pins.stop = false) : s.stopInput true = (s.stopped true).stopRises :=
  if_neg (by simp [h])

theorem stopInput_falls {s : State} (h : s.pins.stop = true) : s.stopInput false = (s.stopped false).stopFalls :=
  if_neg (by simp [h])

theorem stopRises_idle {s : State} (h : s.labels.state = .idle) :
    s.stopRises = { s with labels := { s.labels with state := .stopped } } := by
  simp only [stopRises, h]
  rfl

theorem stopRises_sending {s : State} {n : Nat} (h : s.labels.state = .sending) (current : s.labels.current = some n) :
    s.stopRises = ({ s with labels := { s.labels with stopSeen := true } } : State).modEntry n
      (fun x => { x with afterStop := true }) := by
  have hrises : s.stopRises = (s.modEntry n (fun x => { x with afterStop := true })).modLabels
      (fun c => { c with stopSeen := true }) := by
    simp only [stopRises, h, current]
  exact hrises

theorem stopRises_cleared {s : State} (h : s.labels.state = .sending) (current : s.labels.current = none) :
    s.stopRises = s := by
  simp only [stopRises, h, current]

theorem stopRises_quiet {s : State} (h : s.labels.state ∈ [ChanState.awaitAck, .paused, .stopped, .fault]) :
    s.stopRises = s := by
  simp only [List.mem_cons, List.not_mem_nil, or_false] at h
  rcases h with h | h | h | h <;> simp only [stopRises, h]

theorem stopFalls_stopped {s : State} (h : s.labels.state = .stopped) : s.stopFalls = s.enterIdle := by
  rw [stopFalls, h]

theorem stopFalls_other {s : State} (h : s.labels.state ≠ .stopped) : s.stopFalls = s := by
  unfold stopFalls
  split
  · exact absurd ‹_› h
  · rfl

/-- Outside IDLE, with a frame on the link or with nothing QUEUED, no send starts (R160). -/
theorem trySend_rests {s : State} (h : s.labels.state ≠ .idle ∨ s.labels.wire ≠ none ∨ s.firstQueued = none) :
    s.trySend = s := by
  rcases h with h | h | h
  · exact trySend_of_state h
  · exact trySend_of_wire h
  · exact trySend_of_empty h

end State

/-- Settles O41: READY acts only when it rises, STOP by the state of the channel. -/
theorem stopAndReadyChange : Obligations.StopAndReadyChange := by
  intro s
  refine ⟨congrArg _ (readyInput_same s), congrArg _ (stopInput_same s), fun asserted changes quiet => ?quiet, fun unready => ?ready,
    fun go => ?rises, fun stop => ?falls⟩
  case quiet =>
    refine congrArg _ ((readyInput_changes changes).trans ?_)
    rcases quiet with rfl | quiet
    · rfl
    · cases asserted with
      | false => rfl
      | true => exact readyRises_quiet quiet
  case ready =>
    intro u permitted rests
    refine ⟨fun level => ⟨?_, fun h => ?_⟩, fun pulse permit => ⟨?_, fun h => ?_⟩⟩
    · exact congrArg _ ((readyInput_rises unready).trans (readyRises_level (s := u) level))
    · exact congrArg _ ((readyInput_rises unready).trans ((readyRises_level (s := u) level).trans (trySend_rests (s := u) h)))
    · exact congrArg _ ((readyInput_rises unready).trans (readyRises_pulse (s := u) pulse permit))
    · exact congrArg _ ((readyInput_rises unready).trans ((readyRises_pulse (s := u) pulse permit).trans
        (trySend_rests (s := permitted) h)))
  case rises =>
    intro u
    exact ⟨fun h => congrArg _ ((stopInput_rises go).trans (stopRises_idle (s := u) h)),
      fun n h current => congrArg _ ((stopInput_rises go).trans (stopRises_sending (s := u) h current)),
      fun h current => congrArg _ ((stopInput_rises go).trans (stopRises_cleared (s := u) h current)),
      fun h => congrArg _ ((stopInput_rises go).trans (stopRises_quiet (s := u) h))⟩
  case falls =>
    intro u
    have hidle : s.labels.state = .stopped → exec (.stopChange false) s
        = .next ({ u with labels := { s.labels with state := .idle } } : State).trySend := fun h =>
      congrArg _ ((stopInput_falls stop).trans ((stopFalls_stopped (s := u) h).trans (if_neg Bool.false_ne_true)))
    exact ⟨fun h => congrArg _ ((stopInput_falls stop).trans (stopFalls_other (s := u) h)), hidle,
      fun h empty => (hidle h).trans (congrArg _ (trySend_of_empty empty))⟩

end Sys2Proof.Machine
end

section
/-! The closing test, the grant of a freed label entry, and the serial of a composition (R144, R145, R156, R157). -/

namespace Sys2Proof.Machine

open Sys2Proof.Config

/-! ### The serial (R156) -/

theorem pickSerial_spec (used : List Nat) : ∀ fuel n, ∃ k ≤ fuel, pickSerial used fuel n = Nat.repeat stepSerial k n
    ∧ (∀ j < k, Nat.repeat stepSerial j n ∈ used) ∧ (k < fuel → Nat.repeat stepSerial k n ∉ used) := by
  have hshift : ∀ k n, Nat.repeat stepSerial (k + 1) n = Nat.repeat stepSerial k (stepSerial n) := by
    intro k
    induction k with
    | zero => exact fun n => rfl
    | succ k ih => exact fun n => congrArg stepSerial (ih n)
  intro fuel
  induction fuel with
  | zero => exact fun n => ⟨0, Nat.le_refl 0, rfl, fun j hj => absurd hj (by omega), fun h => absurd h (by omega)⟩
  | succ fuel ih =>
    intro n
    by_cases hn : n ∈ used
    · obtain ⟨k, hk, hpick, hheld, hfree⟩ := ih (stepSerial n)
      refine ⟨k + 1, by omega, ?_, fun j hj => ?_, fun h => ?_⟩
      · rw [hshift, ← hpick, pickSerial, if_pos hn]
      · cases j with
        | zero => exact hn
        | succ j =>
          rw [hshift]
          exact hheld j (by omega)
      · rw [hshift]
        exact hfree (by omega)
    · exact ⟨0, by omega, by rw [pickSerial, if_neg hn]; rfl, fun j hj => absurd hj (by omega), fun _ => hn⟩

/-- The serials go round in a ring of 99999999. -/
theorem repeat_stepSerial {n : Nat} (low : 1 ≤ n) (high : n ≤ 99999999) (k : Nat) :
    Nat.repeat stepSerial k n = (n - 1 + k) % 99999999 + 1 := by
  induction k with
  | zero =>
    show n = _
    omega
  | succ k ih =>
    show stepSerial (Nat.repeat stepSerial k n) = _
    rw [ih, stepSerial]
    simp only [maxSerial]
    split <;> omega

/-- With at most 8 serials held, one of the first nine of the ring is free. -/
theorem pickSerial_free {used : List Nat} (few : used.length ≤ 8) {n : Nat} (low : 1 ≤ n) (high : n ≤ 99999999) :
    ∃ k ≤ 8, pickSerial used 9 n = Nat.repeat stepSerial k n ∧ (∀ j < k, Nat.repeat stepSerial j n ∈ used)
      ∧ Nat.repeat stepSerial k n ∉ used := by
  obtain ⟨k, hk, hpick, hheld, hfree⟩ := pickSerial_spec used 9 n
  have hlt : k < 9 := by
    by_contra hnine
    have hsub : ((List.range 9).map fun j => Nat.repeat stepSerial j n) ⊆ used := by
      intro m hm
      obtain ⟨j, hj, rfl⟩ := List.mem_map.mp hm
      exact hheld j (by rw [List.mem_range] at hj; omega)
    have hnodup : ((List.range 9).map fun j => Nat.repeat stepSerial j n).Nodup := by
      refine List.Nodup.map_on (fun i hi j hj h => ?_) List.nodup_range
      rw [List.mem_range] at hi hj
      rw [repeat_stepSerial low high, repeat_stepSerial low high] at h
      omega
    have hlen := (hnodup.subperm hsub).length_le
    simp at hlen
    omega
  exact ⟨k, by omega, hpick, hheld, hfree hlt⟩

namespace State

/-! ### The closing test by the bundle (R144) -/

section Bundle

variable {s : State} {p : Fin 12} {b : Bundle} (bundle : (s.pocket p).bundle = some b)

include bundle

theorem closingTest_stays (h : (s.pocket p).state ≠ .closing ∨ b.label ≠ .none ∨ b.reservations ≠ 0) : s.closingTest p = s := by
  rcases h with h | h
  · exact closingTest_of_state h
  · unfold closingTest
    rw [bundle]
    split
    case h_1 _ _ _ heq =>
      cases heq
      exact if_neg fun k => h.elim (fun hl => hl k.1) (fun hr => hr k.2)
    case h_2 => rfl

variable (closing : (s.pocket p).state = .closing)

theorem modBundle_eq (f : Bundle → Bundle) (st : PocketState) :
    (s.modPocket p fun x => { x with bundle := x.bundle.map f, state := st })
      = s.modPocket p fun x => { x with state := st, bundle := some (f b) } :=
  modPocket_congr (by simp [bundle])

include closing

theorem closingTest_closing (label : b.label = .none) (none' : b.reservations = 0) : s.closingTest p
    = if b.pieces = 0 then s.discardBundle p else if s.labelRoom then s.labelBundle p b else s.joinWait p := by
  unfold closingTest
  rw [closing, bundle]
  exact if_pos ⟨label, none'⟩

omit bundle in
theorem discardBundle_eq : s.discardBundle p = (s.modPocket p (fun x => { x with
      state := .empty
      bundle := none })).offer ((s.pocket p).report p .closing .empty .discarded 0) := by
  rw [discardBundle, closing]

theorem joinWait_eq : s.joinWait p = (s.modPocket p (fun x => { x with bundle := some { b with label := .waiting } })).offer
      ({ s.pocket p with bundle := some { b with label := .waiting } }.report p .closing .closing .labelWait 0) := by
  have hmod : (s.modPocket p fun x => { x with bundle := x.bundle.map (fun y => { y with label := .waiting }), state := .closing })
      = s.modPocket p fun x => { x with bundle := some { b with label := .waiting } } :=
    modPocket_congr (by simp [bundle, ← closing])
  rw [joinWait, modBundle, movePocket_modPocket, hmod, bundle, closing]
  rfl

theorem labelBundle_eq : s.labelBundle p b = ((s.compose p b).modPocket p (fun x => { x with
      state := .closed
      bundle := some { b with label := .labelled s.nextSerial } })).offer
    ({ s.pocket p with bundle := some { b with label := .labelled s.nextSerial } }.report p .closing .closed .closed
      s.nextSerial) := by
  have hpocket : (s.compose p b).pocket p = s.pocket p := by
    obtain ⟨c, hsend⟩ := trySend_changes (s.modLabels (fun c => { c with
      queue := c.queue ++ [s.composed p b]
      serial := stepSerial s.nextSerial }))
    rw [compose, hsend]
    rfl
  rw [labelBundle, modBundle, movePocket_modPocket,
    modBundle_eq (s := s.compose p b) (by rw [hpocket]; exact bundle), hpocket, bundle, closing]
  rfl

end Bundle

/-! ### The label-wait set (R145) -/

theorem waiting_iff (s : State) (p : Fin 12) : s.waiting p = true
    ↔ (s.pocket p).state = .closing ∧ ∃ b, (s.pocket p).bundle = some b ∧ b.label = .waiting := by
  unfold waiting
  cases h : (s.pocket p).bundle with
  | none => simp
  | some b => simp

theorem grant_none {s : State} (h : ∀ p : Fin 12, s.waiting p = false) : s.grant = s := by
  have hfind : (List.finRange 12).find? s.waiting = none := by
    rw [List.find?_eq_none]
    exact fun p _ => by simp [h p]
  rw [grant, hfind]

theorem grant_first {s : State} {p : Fin 12} {b : Bundle} (bundle : (s.pocket p).bundle = some b) (waits : s.waiting p = true)
    (first : ∀ j : Fin 12, j < p → s.waiting j = false) : s.grant = if s.labelRoom then s.labelBundle p b else s := by
  have hfind : (List.finRange 12).find? s.waiting = some p := by
    rw [← Fin.find?_eq_find?_finRange, Fin.find?_eq_some_iff]
    exact ⟨waits, first⟩
  rw [grant, hfind]
  simp only [bundle]

end State

open State

/-- Settles O38: the serial is the first free of the ring; the closing test and the grant go by bundle and room. -/
theorem closingTests : Obligations.ClosingTests := by
  refine ⟨?serial, ?tests, fun s => ⟨grant_none, waiting_iff s⟩⟩
  case serial =>
    intro s few low high next held
    have hheld : ∀ n, n ∈ s.labels.queue.map LabelEntry.serial ↔ held n := fun n => List.mem_map
    obtain ⟨k, hk, hpick, hbefore, hfree⟩ := pickSerial_free (used := s.labels.queue.map LabelEntry.serial) (by simpa using few)
      low high
    have hserial : s.nextSerial = Nat.repeat next k s.labels.serial := hpick
    have hring : s.nextSerial = (s.labels.serial - 1 + k) % 99999999 + 1 := hpick.trans (repeat_stepSerial low high k)
    refine ⟨by omega, by omega, ?_, k, hk, hserial, fun j hj => (hheld _).mp (hbefore j hj)⟩
    rw [hserial]
    exact mt (hheld _).mpr hfree
  case tests =>
    intro s p b bundle k n labels composed labelled waits closed
    have hclosed : k.state = .closing → s.labelBundle p b = closed := fun closing => labelBundle_eq bundle closing
    refine ⟨closingTest_stays bundle, fun closing label none' => ⟨fun h => ?_, fun h room => ?_, fun h full => ?_⟩,
      fun closing label first => ?grants⟩
    · rw [closingTest_closing bundle closing label none', if_pos h, discardBundle_eq closing]
    · rw [closingTest_closing bundle closing label none', if_neg h, if_pos (by simpa [labelRoom] using room), hclosed closing]
    · rw [closingTest_closing bundle closing label none', if_neg h, if_neg (by simpa [labelRoom] using full),
        joinWait_eq bundle closing]
    case grants =>
      have hwaits : s.waiting p = true := (waiting_iff s p).mpr ⟨closing, b, bundle, label⟩
      refine ⟨fun room => ?_, fun full => ?_⟩
      · rw [grant_first bundle hwaits first, if_pos (by simpa [labelRoom] using room), hclosed closing]
      · rw [grant_first bundle hwaits first, if_neg (by simpa [labelRoom] using full)]

end Sys2Proof.Machine
end

section
/-! Conversions between millimetres and counts, half up (R25), and the steps of a position counter (R22 to R28). -/

namespace Sys2Proof.Machine

open Sys2Proof.Config

/-! ### Conversions (R25) -/

/-- The half-up quotient brackets its numerator. -/
theorem SectionCfg.toCounts_bounds (c : SectionCfg) (mm : Nat) (scaled : 0 < c.scale) :
    2 * c.scale * c.toCounts mm ≤ 2 * (mm * 1000) + c.scale
      ∧ 2 * (mm * 1000) + c.scale < 2 * c.scale * (c.toCounts mm + 1) := by
  have below : c.scale * c.toCounts mm ≤ mm * 1000 + c.scale / 2 := Nat.mul_div_le _ _
  have above : mm * 1000 + c.scale / 2 < c.scale * (c.toCounts mm + 1) := Nat.lt_mul_div_succ _ scaled
  rw [Nat.mul_assoc, Nat.mul_assoc]
  generalize c.scale * c.toCounts mm = low at *
  generalize c.scale * (c.toCounts mm + 1) = high at *
  omega

/-- A length of at most 24000 mm stays far below half the counter's range. -/
theorem SectionCfg.toCounts_le (c : SectionCfg) (mm : Nat) (scaled : 10 ≤ c.scale) (short : mm ≤ 24000) :
    c.toCounts mm ≤ 2400000 := by
  have product : 24000 * 1000 ≤ 2400000 * c.scale := by omega
  refine Nat.le_of_lt_succ ((Nat.div_lt_iff_lt_mul (by omega)).2 ?_)
  omega

/-- Settles O12: division with remainder, by the scale and by 1000. -/
theorem lengthConversions : Obligations.LengthConversions := by
  refine ⟨?counts, ?mm, rfl, rfl, rfl, rfl⟩
  case counts =>
    intro c mm scaled _
    obtain ⟨below, above⟩ := c.toCounts_bounds mm (by omega)
    refine ⟨rfl, below, above, fun short => ?_⟩
    have few := c.toCounts_le mm scaled short
    exact ⟨few, by omega⟩
  case mm =>
    intro c counts
    refine ⟨rfl, ?_⟩
    unfold SectionCfg.toMm
    omega

end Sys2Proof.Machine
end

section
/-! Release (R16): what each of its parts leaves, and the record and blocks after it. -/

namespace Sys2Proof.Machine

open Sys2Proof.Config

namespace State

/-! ### The pocket unit and the blocks beside it -/

/-- The pockets, labels, reports and host link of one state, beside the other blocks of another. -/
def onto (s t : State) : State := { t with
  pockets := s.pockets
  labels := s.labels
  reports := s.reports
  host := s.host }

theorem offer_onto (r : Report) (s t : State) : (s.onto t).offer r = (s.offer r).onto t := by
  rw [offer_eq, offer_eq r s]
  rfl

section
variable {s t : State} (hpins : t.pins = s.pins) (hclock : t.clock = s.clock)
  (hbank : t.table t.solver.active = s.table s.solver.active)

include hpins hclock

theorem flowPermits_onto : (s.onto t).flowPermits = s.flowPermits := by
  unfold flowPermits
  rw [show (s.onto t).pins = s.pins from hpins, show (s.onto t).clock = s.clock from hclock]
  rfl

theorem trySend_onto : (s.onto t).trySend = s.trySend.onto t := by
  have hstart : ∀ e, (s.onto t).startSend e = (s.startSend e).onto t := by
    intro e
    unfold startSend
    simp only [modLabels, modEntry, onto, hclock]
  unfold trySend
  rw [flowPermits_onto hpins hclock, show (s.onto t).firstQueued = s.firstQueued from rfl]
  by_cases starts : s.labels.state = .idle ∧ s.labels.wire = none ∧ s.flowPermits = true
  · rw [if_pos (by exact starts), if_pos starts]
    cases s.firstQueued with
    | none => rfl
    | some e => exact hstart e
  · rw [if_neg (by exact starts), if_neg starts]

include hbank

theorem compose_onto (p : Fin 12) (b : Bundle) : (s.onto t).compose p b = (s.compose p b).onto t := by
  have hcomposed : (s.onto t).composed p b = s.composed p b := by
    have htable : (s.onto t).table (s.onto t).solver.active = s.table s.solver.active := hbank
    unfold composed
    rw [htable]
    rfl
  unfold compose
  rw [hcomposed]
  exact trySend_onto (s := s.modLabels (fun c => { c with
    queue := c.queue ++ [s.composed p b]
    serial := stepSerial s.nextSerial })) hpins hclock

/-- What stands beside the pocket unit is of no account to the closing test, but for the names of the active bank. -/
theorem closingTest_onto (p : Fin 12) : (s.onto t).closingTest p = (s.closingTest p).onto t := by
  unfold closingTest
  rw [show (s.onto t).pocket p = s.pocket p from rfl, show (s.onto t).labelRoom = s.labelRoom from rfl]
  split
  · split
    · split
      · exact offer_onto _ (s.modPocket p (fun k => { k with state := .empty, bundle := none })) t
      · split
        · rename_i b _ _ _ _ _
          unfold labelBundle movePocket
          rw [compose_onto hpins hclock hbank]
          exact offer_onto _ (((s.compose p b).modBundle p (fun x => { x with label := .labelled s.nextSerial })).modPocket p
            (fun k => { k with state := .closed })) t
        · exact offer_onto _ ((s.modBundle p (fun b => { b with label := .waiting })).modPocket p
            (fun k => { k with state := .closing })) t
    · rfl
  · rfl

theorem handedBack_onto (r : Record) : (s.onto t).handedBack r = (s.handedBack r).onto t := by
  unfold handedBack
  split
  · rename_i pl _
    exact closingTest_onto (s := s.withoutPlacement pl) hpins hclock hbank pl.pocket
  · rfl

end

/-- The same, for a state that differs beside the pocket unit only. -/
theorem handedBack_beside {s t : State} (same : s.onto t = t) (hpins : t.pins = s.pins) (hclock : t.clock = s.clock)
    (hbank : t.table t.solver.active = s.table s.solver.active) (r : Record) : t.handedBack r = (s.handedBack r).onto t := by
  have h := handedBack_onto hpins hclock hbank r
  rwa [same] at h

theorem handedBack_moved (r : Record) (s : State) : s.PocketsMoved (s.handedBack r) := by
  unfold handedBack
  split
  · exact ((PocketsMoved.refl s).unreserve _).closingTest _
  · exact .refl s

theorem handBack_eq {s : State} {i : Fin 64} (live : s.live i = true) :
    s.handBack i = (s.handedBack (s.record i)).setRecord i { s.record i with placement := none } := by
  unfold handedBack
  cases h : (s.record i).placement with
  | none =>
    rw [handBack_unplaced h]
    have hsame : ({ s.record i with placement := none } : Record) = s.record i := by
      rw [← h]
    rw [hsame]
    simp [setRecord, record]
  | some pl =>
    rw [handBack_placed h live, closingTest_setRecord]
    rfl

/-! ### Walks and snapshots read the pockets alone (R80, R134) -/

theorem walk_of_pockets {β : Type} {s t : State} (same : t.pockets = s.pockets) (g : Fin 8) (test : Pocket → Option β) :
    ∀ n visited p, t.walk g test n visited p = s.walk g test n visited p := by
  have hpocket : ∀ p, t.pocket p = s.pocket p := fun p => congrArg (fun v : Vector Pocket 12 => v[p]) same
  intro n
  induction n with
  | zero => exact fun visited p => rfl
  | succ n ih =>
    intro visited p
    cases p with
    | none => rfl
    | some p =>
      unfold walk
      rw [hpocket, ih]

theorem primary_of_pockets {s t : State} (same : t.pockets = s.pockets) (g : Fin 8) : t.primary g = s.primary g := by
  unfold primary pocket
  rw [same]

theorem snapshot_of_pockets {s t : State} (same : t.pockets = s.pockets) : t.snapshot = s.snapshot := by
  unfold snapshot snapTarget target
  simp only [walk_of_pockets same, primary_of_pockets same, pocket, same]

/-! ### The solver forgets a record (R16, R79) -/

theorem solverForget_idle {s : State} {i : Fin 64} (h : s.inFlight i = false) : s.solverForget i
    = { s with solver := { s.solver with queue := s.solver.queue.filter (fun j => decide (j ≠ i)) } } := by
  unfold solverForget
  dsimp only
  rw [h]
  rfl

theorem solverForget_flown {s : State} {i : Fin 64} (h : s.inFlight i = true)
    (stops : s.running = false ∨ s.solver.queue.filter (fun j => decide (j ≠ i)) = []) : s.solverForget i
    = { s with solver := { s.solver with
        queue := s.solver.queue.filter (fun j => decide (j ≠ i))
        flight := none } } := by
  unfold solverForget
  dsimp only
  rw [h, if_pos rfl]
  unfold solverNext
  simp only [modSolver]
  rcases stops with stop | empty
  · split
    · exact if_neg (by rw [Bool.not_eq_true]; exact stop)
    · rfl
  · rw [empty]

theorem solverNext_takes {s : State} {k : Fin 64} {rest : List (Fin 64)} (idle : s.solver.flight = none)
    (runs : s.running = true) (waits : s.solver.queue = k :: rest) : s.solverNext
    = ({ s with solver := { s.solver with
        queue := rest
        flight := some ⟨k, s.snapshot⟩ } } : State).writeRecord k (fun r => { r with solve := .solving }) := by
  unfold solverNext
  rw [idle, waits]
  exact if_pos runs

theorem solverForget_next {s : State} {i k : Fin 64} {rest : List (Fin 64)} (h : s.inFlight i = true)
    (runs : s.running = true) (waits : s.solver.queue.filter (fun j => decide (j ≠ i)) = k :: rest) : s.solverForget i
    = ({ s with solver := { s.solver with
        queue := rest
        flight := some ⟨k, s.snapshot⟩ } } : State).writeRecord k (fun r => { r with solve := .solving }) := by
  unfold solverForget
  dsimp only
  rw [h, if_pos rfl, solverNext_takes (k := k) (rest := rest) (by rfl) (by exact runs) (by exact waits)]
  have hsnapshot : ((s.modSolver (fun v => { v with queue := v.queue.filter (fun j => decide (j ≠ i)) })).modSolver
      (fun v => { v with flight := none })).snapshot = s.snapshot := snapshot_of_pockets rfl
  rw [hsnapshot]
  rfl

/-- The solver's part of a release is the solver's queue and flight, and the record of the next head. -/
theorem solverForget_changes (i : Fin 64) (s : State) : ∃ q f rs, s.solverForget i = { s with
    solver := { s.solver with queue := q, flight := f }
    pool := { s.pool with records := rs } } ∧ rs[i] = s.pool.records[i] := by
  cases h : s.inFlight i with
  | false => exact ⟨_, _, _, solverForget_idle h, rfl⟩
  | true =>
    cases runs : s.running with
    | false => exact ⟨_, _, _, solverForget_flown h (.inl runs), rfl⟩
    | true =>
      cases waits : s.solver.queue.filter (fun j => decide (j ≠ i)) with
      | nil => exact ⟨_, _, _, solverForget_flown h (.inr waits), rfl⟩
      | cons k rest =>
        have hk : k ≠ i := by
          have : k ∈ s.solver.queue.filter (fun j => decide (j ≠ i)) := waits ▸ List.mem_cons_self
          simpa using (List.mem_filter.mp this).2
        rw [solverForget_next h runs waits, writeRecord]
        split
        · refine ⟨_, _, _, rfl, ?_⟩
          exact record_setRecord_of_ne k i _ s hk.symm
        · exact ⟨_, _, _, rfl, rfl⟩

/-! ### The tests that end a release (R177, R182) -/

/-- What the low-records and the drain test keep. -/
structure Tested (s t : State) : Prop where
  pool     : t.pool = s.pool
  pockets  : t.pockets = s.pockets
  labels   : t.labels = s.labels
  counters : t.run.counters = s.run.counters
  settings : t.run.settings = s.run.settings
  flight   : t.solver.flight = s.solver.flight
  queue    : t.solver.queue = s.solver.queue
  cutSet   : t.cuts.cutSet = s.cuts.cutSet
  watch    : t.cuts.watch = s.cuts.watch
  sec      : ∀ y, t.sec y = { s.sec y with awaiting := (t.sec y).awaiting }

theorem Tested.refl (s : State) : s.Tested s := ⟨rfl, rfl, rfl, rfl, rfl, rfl, rfl, rfl, rfl, fun _ => rfl⟩

theorem Tested.trans {s t u : State} (h : s.Tested t) (k : t.Tested u) : s.Tested u :=
  ⟨k.pool.trans h.pool, k.pockets.trans h.pockets, k.labels.trans h.labels, k.counters.trans h.counters,
    k.settings.trans h.settings, k.flight.trans h.flight, k.queue.trans h.queue, k.cutSet.trans h.cutSet,
    k.watch.trans h.watch, fun y => by
      have hk := k.sec y
      rw [h.sec y] at hk
      exact hk⟩

theorem offer_tested (r : Report) (s : State) : s.Tested (s.offer r) := by
  rw [offer_eq]
  exact ⟨rfl, rfl, rfl, rfl, rfl, rfl, rfl, rfl, rfl, fun _ => rfl⟩

theorem setReasons_tested (f : HoldReasons → HoldReasons) (s : State) : s.Tested (s.setReasons f) := by
  obtain ⟨lines, saw, q, tx, w, hset, -, -⟩ := setReasons_changes f s
  rw [hset]
  exact ⟨rfl, rfl, rfl, rfl, rfl, rfl, rfl, rfl, rfl, fun _ => rfl⟩

theorem lowAfterRelease_tested (s : State) : s.Tested s.lowAfterRelease := by
  unfold lowAfterRelease
  split
  · exact setReasons_tested ..
  · exact .refl s

theorem drainTest_tested (s : State) : s.Tested s.drainTest := by
  unfold drainTest
  split
  · rw [bankCommit_changes, reportRun]
    refine Tested.trans (t := State.stopFollowing _) ?_ (offer_tested _ _)
    exact ⟨rfl, rfl, rfl, rfl, rfl, rfl, rfl, rfl, rfl, fun y => by simp [stopFollowing, modCuts, modSecs, sec, modRun]⟩
  · exact .refl s

/-! ### Release as a whole -/

/-- A live record released: its blocks, by what the solver's part and the hand-back leave. -/
structure Released (s t : State) (i : Fin 64) : Prop where
  blank    : t.record i = {}
  record   : ∀ j, j ≠ i → t.record j = (s.solverForget i).record j
  free     : t.pool.free = s.pool.free ++ [i]
  tags     : t.pool.tagCounter = s.pool.tagCounter
  list     : ∀ x, t.list x = (s.list x).filter (fun j => decide (j ≠ i))
  sec      : ∀ x, t.sec x = { s.sec x with
    schedule := (s.sec x).schedule.filter (fun e => decide (e.index ≠ i))
    awaiting := (t.sec x).awaiting }
  cutSet   : t.cuts.cutSet = s.cuts.cutSet.filter (fun j => decide (j ≠ i))
  watch    : t.cuts.watch = s.cuts.watch.filter (fun e => decide (e.index ≠ i))
  pockets  : t.pockets = (s.handedBack (s.record i)).pockets
  labels   : t.labels = (s.handedBack (s.record i)).labels
  flight   : t.solver.flight = (s.solverForget i).solver.flight
  queue    : t.solver.queue = (s.solverForget i).solver.queue
  counters : t.run.counters = s.run.counters

/-- A record out of the solver and the schedules, and its placement handed back. -/
theorem forgotten_handBack {s : State} {i : Fin 64} (live : s.live i = true) :
    ∃ q f rs, s.solverForget i = { s with
        solver := { s.solver with queue := q, flight := f }
        pool := { s.pool with records := rs } }
      ∧ ((s.solverForget i).removeEntries i).handBack i = ((s.handedBack (s.record i)).onto
        ((s.solverForget i).removeEntries i)).setRecord i { s.record i with placement := none } := by
  obtain ⟨q, f, rs, hforget, hrecord⟩ := solverForget_changes i s
  refine ⟨q, f, rs, hforget, ?_⟩
  have hlive : ((s.solverForget i).removeEntries i).live i = true := by
    rw [removeEntries_live, solverForget_live, live]
  have hsame : ((s.solverForget i).removeEntries i).record i = s.record i := by
    rw [hforget]
    exact hrecord
  rw [handBack_eq hlive, hsame]
  refine congrArg (State.setRecord i _) (handedBack_beside ?_ ?_ ?_ ?_ _) <;> rw [hforget] <;> rfl

theorem release_released {s : State} {i : Fin 64} (live : s.live i = true) : s.Released (s.release i) i := by
  obtain ⟨q, f, rs, hforget, hback⟩ := forgotten_handBack live
  have htested := (lowAfterRelease_tested (((s.solverForget i).removeEntries i |>.handBack i).toFree i)).trans
    (drainTest_tested _)
  have hrelease : s.release i = ((((s.solverForget i).removeEntries i).handBack i).toFree i).lowAfterRelease.drainTest :=
    if_pos live
  rw [← hrelease] at htested
  generalize s.release i = t at *
  rw [hback] at htested
  generalize hu : s.handedBack (s.record i) = u at *
  have hrecord : ∀ j, t.record j = if j = i then {} else (s.solverForget i).record j := by
    intro j
    have hpool : t.record j = (State.toFree i (State.setRecord i { s.record i with placement := none }
      (u.onto ((s.solverForget i).removeEntries i)))).record j :=
      congrArg (fun p : Pool => p.records[j]) htested.pool
    rw [hpool]
    by_cases hj : j = i
    · rw [if_pos hj, hj]
      simp [toFree, State.record]
    · have hv : i.val ≠ j.val := fun hv => hj (Fin.ext hv.symm)
      rw [if_neg hj]
      simp [toFree, State.record, setRecord, onto, removeEntries, hv]
  refine ⟨?blank, ?record, ?free, ?tags, ?list, ?sec, ?cutSet, ?watch, ?pockets, ?labels, htested.flight,
    htested.queue, ?counters⟩
  case blank => rw [hrecord, if_pos rfl]
  case record => exact fun j hj => by rw [hrecord, if_neg hj]
  case free => rw [htested.pool, hforget]; rfl
  case tags => rw [htested.pool, hforget]; rfl
  case list =>
    intro x
    unfold State.list
    rw [htested.pool, hforget]
    simp [toFree, removeEntries, setRecord, onto]
  case sec =>
    intro x
    have h := htested.sec x
    rw [hforget] at h
    have hsec : (State.toFree i (State.setRecord i { s.record i with placement := none } (u.onto (State.removeEntries i { s with
        solver := { s.solver with queue := q, flight := f }
        pool := { s.pool with records := rs } })))).sec x
        = { s.sec x with schedule := (s.sec x).schedule.filter (fun e => decide (e.index ≠ i)) } := by
      simp [toFree, removeEntries, setRecord, onto, State.sec, modSecs]
    rw [hsec] at h
    exact h
  case pockets =>
    rw [hu]
    exact htested.pockets
  case labels =>
    rw [hu]
    exact htested.labels
  case cutSet => rw [htested.cutSet, hforget]; rfl
  case watch => rw [htested.watch, hforget]; rfl
  case counters => rw [htested.counters, hforget]; rfl

end State

end Sys2Proof.Machine
end

section
/-! Records released and lost (R16, R17). -/

namespace Sys2Proof.Machine

open Sys2Proof.Config

namespace State

/-! ### Loss (R17, R37) -/

theorem lose_eq {s : State} {i : Fin 64} (x : Sec) (live : s.live i = true) : s.lose i x
    = (({ (s.handedBack (s.record i)).setRecord i { s.record i with
        disp := .runoff .lost
        placement := none } with run := { s.run with counters := { s.run.counters with
          lost := s.run.counters.lost.set x.idx (s.run.counters.lost[x.idx] + 1) } } } : State).offer
      (.lost x ({ s.record i with disp := .runoff .lost }.info none))).release i := by
  have hrun : (s.handedBack (s.record i)).run = s.run := (handedBack_moved _ s).run
  unfold lose
  dsimp only
  rw [putDisposition_eq rfl live]
  generalize s.handedBack (s.record i) = u at hrun ⊢
  have hcounted : (u.setRecord i { s.record i with disp := .runoff .lost, placement := none }).countLost x
      = { u.setRecord i { s.record i with disp := .runoff .lost, placement := none } with
        run := { s.run with counters := { s.run.counters with
          lost := s.run.counters.lost.set x.idx (s.run.counters.lost[x.idx] + 1) } } } := by
    unfold countLost modCounters
    simp only [setRecord_run, hrun]
  have hrecord : ((u.setRecord i { s.record i with disp := .runoff .lost, placement := none }).countLost x).record i
      = { s.record i with disp := .runoff .lost, placement := none } :=
    record_setRecord i _ u
  rw [hrecord, hcounted]
  rfl

end State

/-- Settles O17: a release leaves what its parts leave, one after the other. -/
theorem recordsReleased : Obligations.RecordsReleased := by
  intro s i
  refine ⟨?blank, ?released, ?lost⟩
  case blank =>
    intro dead
    exact if_neg (by simp [dead])
  case released =>
    intro live t waiting
    have h := State.release_released live
    have hother : ∀ {q f}, s.solverForget i = { s with solver := { s.solver with queue := q, flight := f } } →
        t.solver.flight = f ∧ t.solver.queue = q ∧ ∀ j, j ≠ i → t.record j = s.record j := by
      intro q f hforget
      refine ⟨h.flight.trans (by rw [hforget]), h.queue.trans (by rw [hforget]), fun j hj => ?_⟩
      rw [h.record j hj, hforget]
      rfl
    refine ⟨h.blank, h.free, h.tags, h.list, fun x => by rw [h.sec x], h.cutSet, h.watch, ?unplaced, ?placed, ?idle, ?flown,
      ?next⟩
    case unplaced =>
      intro hplacement
      have hback : s.handedBack (s.record i) = s := by rw [State.handedBack, hplacement]
      exact ⟨h.pockets.trans (by rw [hback]), h.labels.trans (by rw [hback])⟩
    case placed =>
      intro pl hplacement u
      have hback : s.handedBack (s.record i) = u := by rw [State.handedBack, hplacement]
      exact ⟨h.pockets.trans (by rw [hback]), h.labels.trans (by rw [hback])⟩
    case idle => exact fun hflight => hother (State.solverForget_idle hflight)
    case flown => exact fun hflight stops => hother (State.solverForget_flown hflight stops)
    case next =>
      intro k rest hflight runs hwaiting hlive
      have hk : k ≠ i := by
        have : k ∈ waiting := hwaiting ▸ List.mem_cons_self
        simpa using (List.mem_filter.mp this).2
      have hforget : s.solverForget i = State.setRecord k { s.record k with solve := .solving } { s with solver := { s.solver with
          queue := rest
          flight := some ⟨k, s.snapshot⟩ } } :=
        (State.solverForget_next hflight runs hwaiting).trans (if_pos hlive)
      refine ⟨h.flight.trans (by rw [hforget]; rfl), h.queue.trans (by rw [hforget]; rfl), ?_, fun j hj hjk => ?_⟩
      · rw [h.record k hk, hforget, State.record_setRecord]
      · rw [h.record j hj, hforget, State.record_setRecord_of_ne _ _ _ _ hjk]
        rfl
  case lost =>
    intro x live r counters written report
    have hlose := State.lose_eq x live
    refine ⟨fun hplacement => ?_, fun pl hplacement => ?_⟩
    · have hback : s.handedBack (s.record i) = s := by rw [State.handedBack, hplacement]
      rw [hback] at hlose
      exact hlose
    · have hback : s.handedBack (s.record i) = (s.withoutPlacement pl).closingTest pl.pocket := by
        rw [State.handedBack, hplacement]
      rw [hback] at hlose
      exact hlose

end Sys2Proof.Machine
end

section
/-! The steps of a position counter (R24, R26, R27) and the raw input of an eye (R28). -/

namespace Sys2Proof.Machine

open Sys2Proof.Config

namespace State

/-! ### Sections written again -/

theorem setSec_setSec (x : Sec) (u v : SectionUnit) (s : State) : (s.setSec x u).setSec x v = s.setSec x v := by
  simp [setSec]

theorem modSec_eq (x : Sec) (f : SectionUnit → SectionUnit) (s : State) : s.modSec x f = s.setSec x (f (s.sec x)) := rfl

theorem setSec_running (x : Sec) (u : SectionUnit) (s : State) : (s.setSec x u).running = s.running := rfl

theorem togglePhase_running (x : Sec) (phase : Phase) (s : State) : (s.togglePhase x phase).running = s.running := by
  simp [running]

/-! ### Reached positions acted on (R26) -/

theorem settle_rest {stepped : Option Sec} {s : State} {n : Nat} (rest : s.due stepped = []) :
    s.settle stepped (n + 1) = s := by
  rw [settle, rest]

theorem settle_one {stepped : Option Sec} {s : State} {d : Due} {n : Nat} (one : s.due stepped = [d])
    (rest : (s.act d).due stepped = []) : s.settle stepped (n + 2) = s.act d := by
  rw [settle, one]
  exact settle_rest rest

/-! ### The counter steps (R24, R27) -/

theorem stepForward_eq (x : Sec) (s : State) : s.stepForward x = (s.setSec x { s.sec x with
    counter := (s.sec x).counter + 1
    highMark := if s.running = true ∧ 8388608 ≤ ((s.sec x).counter + 1 - (s.sec x).highMark).toNat then (s.sec x).highMark
      else (s.sec x).counter + 1 }).settle (some x) settleFuel := by
  unfold stepForward followMark
  dsimp only
  refine congrArg (settle (some x) settleFuel) ?_
  have hreached : (s.modSec x (fun u => { u with counter := u.counter + 1 })).isReached x
      ((s.modSec x (fun u => { u with counter := u.counter + 1 })).sec x).highMark
      = decide (((s.sec x).counter + 1 - (s.sec x).highMark).toNat < 8388608) := by
    rw [isReached, sec_modSec]
    rfl
  rw [hreached]
  simp only [modSec_eq, sec_setSec, setSec_setSec, setSec_running]
  by_cases runs : s.running = true
  · by_cases far : 8388608 ≤ ((s.sec x).counter + 1 - (s.sec x).highMark).toNat
    · rw [if_pos runs, if_neg (by rw [decide_eq_true_iff]; omega), if_pos ⟨runs, far⟩]
    · rw [if_pos runs, if_pos (by rw [decide_eq_true_iff]; omega), if_neg fun h => far h.2]
  · rw [if_neg runs, if_neg fun h => runs h.1]

theorem stepBackward_resting {x : Sec} {s : State} (h : s.running = false) : s.stepBackward x = s.setSec x { s.sec x with
    counter := (s.sec x).counter - 1
    highMark := (s.sec x).counter - 1 } := by
  unfold stepBackward followMark
  simp only [modSec_eq, sec_setSec, setSec_setSec, setSec_running, h]
  rfl

theorem stepBackward_within {x : Sec} {s : State} (h : s.running = true)
    (near : ((s.sec x).highMark - ((s.sec x).counter - 1)).toNat ≤ (s.sec x).cfg.reversal) :
    s.stepBackward x = s.setSec x { s.sec x with counter := (s.sec x).counter - 1 } := by
  unfold stepBackward
  simp only [modSec_eq, sec_setSec, setSec_running, h]
  exact if_neg (Nat.not_lt.mpr near)

theorem stepBackward_beyond {x : Sec} {s : State} (h : s.running = true)
    (far : (s.sec x).cfg.reversal < ((s.sec x).highMark - ((s.sec x).counter - 1)).toNat) :
    s.stepBackward x = (s.setSec x { s.sec x with counter := (s.sec x).counter - 1 }).enterHalt (.reversal x) (.reversal x) := by
  unfold stepBackward
  simp only [modSec_eq, sec_setSec, setSec_running, h]
  exact if_pos far

theorem rawStep_forward_wraps {x : Sec} {s : State} (h : (s.sec x).acc = (s.sec x).cfg.divider) :
    s.rawStep x true = (s.setSec x { s.sec x with acc := 0 }).stepForward x := by
  simp [rawStep, modSec, h]

theorem rawStep_backward_wraps {x : Sec} {s : State} (h : (s.sec x).acc = 0) :
    s.rawStep x false = (s.setSec x { s.sec x with acc := (s.sec x).cfg.divider }).stepBackward x := by
  simp [rawStep, modSec, h]

/-! ### HALT keeps the counters -/

theorem release_counter (i : Fin 64) (x : Sec) (s : State) : ((s.release i).sec x).counter = (s.sec x).counter := by
  by_cases live : s.live i = true
  · rw [(release_released live).sec x]
  · rw [release, if_neg live]

theorem foldl_release_counter (x : Sec) (l : List (Fin 64)) :
    ∀ s : State, ((l.foldl (fun u i => u.release i) s).sec x).counter = (s.sec x).counter := by
  induction l with
  | nil => exact fun s => rfl
  | cons i l ih => exact fun s => (ih (s.release i)).trans (release_counter i x s)

theorem halting_secs (reason : HaltReason) (s : State) : (s.halting reason).secs = s.secs := by
  obtain ⟨lines, saw, q, tx, w, hset, -, -⟩ := setReasons_changes (fun r => { r with notRunning := true })
    ({ s with run := { s.run with state := .halt, halt := reason } } : State)
  rw [halting, bankCommit_changes, hset]

theorem haltedBlocks_counter (keep : Option (Fin 24)) (x : Sec) (s : State) :
    ((s.haltedBlocks keep).sec x).counter = (s.sec x).counter := by
  simp [haltedBlocks, emptyQueues, stopFollowing, sec, modSecs, modCuts]

theorem enterHalt_counter (reason : HaltReason) (cause : RunCause) (x : Sec) (s : State) :
    ((s.enterHalt reason cause).sec x).counter = (s.sec x).counter := by
  have hreleased := foldl_release_counter x (s.halting reason).liveList (s.halting reason)
  have hsame : (s.halting reason).sec x = s.sec x := congrArg (·[x.idx]) (halting_secs reason s)
  have hblocks := haltedBlocks_counter s.run.settings.feedLine x (s.halting reason).releaseAll
  rw [enterHalt_eq, reportRun]
  generalize (s.halting reason).releaseAll.haltedBlocks s.run.settings.feedLine = u at *
  have hoffered : ∀ r, (u.offer r).sec x = u.sec x := fun r => congrArg (·[x.idx]) ((PocketsMoved.refl u).offer r).secs
  rw [hoffered, hblocks]
  exact hreleased.trans (by rw [hsame])

/-- HALT is entered alike from a state of other pins and counters. -/
theorem HaltedFrom.of_counted {s t : State} {x : Sec} {phase : Phase} {u : SectionUnit} {reason : HaltReason}
    {cause : RunCause} (h : ((s.togglePhase x phase).setSec x u).HaltedFrom t reason cause) :
    s.HaltedFrom t reason cause := by
  cases phase <;> exact h

end State

/-- Settles O10: the accumulator wraps, the counter steps, and what is reached or exceeded is acted on. -/
theorem counterSteps : Obligations.CounterSteps := by
  refine ⟨?forward, ?backward, ?reversal⟩
  case forward =>
    intro s x phase hdirection hwraps c t
    have hexec : exec (.rawCount x phase) s = .next (t.settle (some x) State.settleFuel) := by
      rw [exec_rawCount, hdirection, State.rawStep_forward_wraps (by simpa using hwraps), State.stepForward_eq]
      simp only [State.sec_setSec, State.setSec_setSec, State.setSec_running, State.togglePhase_running,
        State.togglePhase_sec]
      rfl
    refine ⟨fun rest => ?_, fun d one rest => ?_⟩
    · rw [hexec, State.settle_rest rest]
    · rw [hexec, State.settle_one one rest]
  case backward =>
    intro s x phase hdirection hwraps c
    have hexec : exec (.rawCount x phase) s = .next (((s.togglePhase x phase).setSec x
        { s.sec x with acc := (s.sec x).cfg.divider }).stepBackward x) := by
      rw [exec_rawCount, hdirection, State.rawStep_backward_wraps (by simpa using hwraps), State.togglePhase_sec]
    refine ⟨fun stopped => ?_, fun runs near => ?_⟩
    · rw [hexec, State.stepBackward_resting (by rw [State.setSec_running, State.togglePhase_running, stopped]),
        State.sec_setSec, State.setSec_setSec]
    · rw [hexec, State.stepBackward_within (by rw [State.setSec_running, State.togglePhase_running, runs])
        (by rw [State.sec_setSec]; exact near), State.sec_setSec, State.setSec_setSec]
  case reversal =>
    intro s x phase lists runs hdirection hwraps far
    have hexec : exec (.rawCount x phase) s = .next (((s.togglePhase x phase).setSec x
        { s.sec x with acc := (s.sec x).cfg.divider, counter := (s.sec x).counter - 1 }).enterHalt (.reversal x)
          (.reversal x)) := by
      rw [exec_rawCount, hdirection, State.rawStep_backward_wraps (by simpa using hwraps), State.togglePhase_sec,
        State.stepBackward_beyond (by rw [State.setSec_running, State.togglePhase_running, runs])
          (by rw [State.sec_setSec]; exact far), State.sec_setSec, State.setSec_setSec]
    refine ⟨_, hexec, State.HaltedFrom.of_counted (State.enterHalt_haltedFrom ?_ _ _), ?_⟩
    · rw [State.setSec_pool, State.togglePhase_pool]
      exact lists
    · rw [State.enterHalt_counter, State.sec_setSec]

end Sys2Proof.Machine
end

section
/-! The raw input of an eye (R28, R29). -/

namespace Sys2Proof.Machine

open Sys2Proof.Config

/-- A position ahead of the counter by less than half its range is not reached. -/
theorem reached_ahead (c : Pos) {d : Nat} (ahead : 1 ≤ d) (near : d ≤ 8388608) : reached c (addCounts c d) = false := by
  unfold reached addCounts
  rw [decide_eq_false_iff_not]
  have hdistance : (c - (c + BitVec.ofNat 24 d)).toNat = 16777216 - d := by
    have := c.isLt
    simp only [BitVec.toNat_sub, BitVec.toNat_add, BitVec.toNat_ofNat]
    omega
  omega

theorem reached_self (c : Pos) : reached c (addCounts c 0) = true := by
  simp [reached, addCounts]

namespace State

/-! ### A confirmed change (R28) -/

theorem confirmed_some {s : State} {x : Sec} {e : PendingEye} (pending : (s.sec x).pending = some e) :
    s.confirmed x = if s.isReached x (addCounts e.pos (s.sec x).cfg.debounce) then some e else none := by
  unfold confirmed
  rw [pending]

theorem confirmEye_eq (x : Sec) (e : PendingEye) (s : State) : s.confirmEye x e
    = if s.running then (s.setSec x { s.sec x with
        blocked := e.blocked
        pending := none
        edges := if e.blocked then (s.sec x).edges + 1 else (s.sec x).edges }).followEdge x e.blocked e.pos
      else s.setSec x { s.sec x with
        blocked := e.blocked
        pending := none
        edges := if e.blocked then (s.sec x).edges + 1 else (s.sec x).edges } := rfl

/-! ### The input takes a level (R28) -/

section
variable {x : Sec} {blocked : Bool} {s : State} (changes : blocked ≠ (s.sec x).blocked)

theorem eyeInput_returns (same : blocked = (s.sec x).blocked) : s.eyeInput x blocked
    = ({ s with pins := { s.pins with eyes := s.pins.eyes.set x.idx blocked } } : State).setSec x
      { s.sec x with pending := none } := if_pos same

include changes

theorem eyeInput_pending (pending : (s.sec x).pending.isSome = true) : s.eyeInput x blocked
    = { s with pins := { s.pins with eyes := s.pins.eyes.set x.idx blocked } } :=
  (if_neg changes).trans (if_pos pending)

/-- The state in which the change of the input is pending. -/
theorem eyeInput_begins (free : (s.sec x).pending = none) {t : State}
    (ht : t = ({ s with pins := { s.pins with eyes := s.pins.eyes.set x.idx blocked } } : State).setSec x
      { s.sec x with pending := some ⟨blocked, (s.sec x).counter⟩ }) :
    (reached (s.sec x).counter (addCounts (s.sec x).counter (s.sec x).cfg.debounce) = false → s.eyeInput x blocked = t)
    ∧ (reached (s.sec x).counter (addCounts (s.sec x).counter (s.sec x).cfg.debounce) = true →
      s.eyeInput x blocked = (t.confirmEye x ⟨blocked, (s.sec x).counter⟩).settle none settleFuel) := by
  have hsec : t.sec x = { s.sec x with pending := some ⟨blocked, (s.sec x).counter⟩ } := by
    rw [ht, sec_setSec]
  have hstart : s.eyeInput x blocked = match t.confirmed x with
      | some e => (t.confirmEye x e).settle none settleFuel
      | none => t := by
    rw [ht]
    have hfree : ¬ (s.sec x).pending.isSome = true := by
      rw [free]
      decide
    exact (if_neg changes).trans (if_neg hfree)
  have hconfirmed : t.confirmed x = if reached (s.sec x).counter (addCounts (s.sec x).counter (s.sec x).cfg.debounce)
      then some ⟨blocked, (s.sec x).counter⟩ else none := by
    rw [confirmed_some (e := ⟨blocked, (s.sec x).counter⟩) (by rw [hsec]), isReached, hsec]
  rw [hstart, hconfirmed]
  exact ⟨fun h => by rw [h]; rfl, fun h => by rw [h]; rfl⟩

end

end State

theorem exec_eyeInputChange (x : Sec) (blocked : Bool) (s : State) :
    exec (.eyeInputChange x blocked) s = .next (s.eyeInput x blocked) := rfl

/-- Settles O11: a change at the debounce distance 0 is confirmed when it begins, and at 1 to 15 it is not. -/
theorem eyeInputChange : Obligations.EyeInputChange := by
  intro s x blocked u v
  refine ⟨fun same => ?_, fun changes pending => ?_, fun changes free ahead near => ?_, fun changes free here stopped => ?_⟩
  · rw [exec_eyeInputChange, State.eyeInput_returns same]
  · rw [exec_eyeInputChange, State.eyeInput_pending changes pending]
  · rw [exec_eyeInputChange, (State.eyeInput_begins changes free rfl).1 (reached_ahead _ ahead (Nat.le_trans near (by decide)))]
  · intro t rest
    have hconfirm : (u.setSec x { v with pending := some ⟨blocked, v.counter⟩ }).confirmEye x ⟨blocked, v.counter⟩ = t := by
      have hrunning : (u.setSec x { v with pending := some ⟨blocked, v.counter⟩ }).running = false := stopped
      rw [State.confirmEye_eq, hrunning, if_neg (by decide), State.sec_setSec, State.setSec_setSec]
      have hv : ({ v with pending := none } : SectionUnit) = v := by
        rw [← free]
      exact congrArg (fun w : SectionUnit => u.setSec x { w with
        blocked := blocked
        edges := if blocked then v.edges + 1 else v.edges }) hv
    have hreached : reached v.counter (addCounts v.counter v.cfg.debounce) = true := by
      rw [here]
      exact reached_self _
    rw [exec_eyeInputChange, (State.eyeInput_begins changes free rfl).2 hreached, hconfirm, State.settle_rest rest]

end Sys2Proof.Machine
end

section
/-! The positions that wait to be acted on (R26), and the allocation of a record (R10, R13, R182). -/

namespace Sys2Proof.Machine

open Sys2Proof.Config

namespace State

/-! ### Each waiting position, by what makes it wait -/

section
variable {s : State} {d : Due}

theorem due_of_test {c : Prop} [Decidable c] {a : Due} : (if c then some a else none) = some d ↔ d = a ∧ c := by
  rw [Option.ite_none_right_eq_some, Option.some.injEq, and_comm, eq_comm]

theorem dueEye_iff {stepped : Option Sec} : s.dueEye stepped = some d ↔ ∃ x e, d = .eye x e ∧ stepped = some x
    ∧ (s.sec x).pending = some e ∧ s.isReached x (addCounts e.pos (s.sec x).cfg.debounce) = true := by
  have hconfirmed : ∀ x e, s.confirmed x = some e ↔ (s.sec x).pending = some e
      ∧ s.isReached x (addCounts e.pos (s.sec x).cfg.debounce) = true := by
    intro x e
    unfold confirmed
    cases h : (s.sec x).pending with
    | none => simp
    | some e' =>
      simp only [Option.ite_none_right_eq_some, Option.some.injEq]
      constructor
      · rintro ⟨hreached, rfl⟩
        exact ⟨rfl, hreached⟩
      · rintro ⟨rfl, hreached⟩
        exact ⟨hreached, rfl⟩
  cases stepped with
  | none => simp [dueEye]
  | some x =>
    simp only [dueEye, Option.bind_some, Option.map_eq_some_iff, hconfirmed]
    constructor
    · rintro ⟨e, ⟨hpending, hreached⟩, rfl⟩
      exact ⟨x, e, rfl, rfl, hpending, hreached⟩
    · rintro ⟨y, e, rfl, hx, hpending, hreached⟩
      cases hx
      exact ⟨e, ⟨hpending, hreached⟩, rfl⟩

theorem dueOverlength_iff : s.dueOverlength = some d ↔ ∃ lead far, d = .overlength lead ∧ s.gauge = .measuring lead far
    ∧ s.isReached .s1 far = true := by
  unfold dueOverlength
  cases h : s.gauge with
  | idle => simp
  | overlong => simp
  | measuring lead far =>
    simp only [due_of_test, Gauge.measuring.injEq]
    constructor
    · rintro ⟨rfl, hreached⟩
      exact ⟨lead, far, rfl, ⟨rfl, rfl⟩, hreached⟩
    · rintro ⟨_, _, rfl, ⟨rfl, rfl⟩, hreached⟩
      exact ⟨rfl, hreached⟩

theorem dueDeadline_iff {x : Sec} : s.dueDeadline x = some d ↔ ∃ i, d = .deadline x i ∧ (s.list x).head? = some i
    ∧ s.isReached x (s.deadline x i) = true := by
  unfold dueDeadline
  cases h : s.list x with
  | nil => simp
  | cons i rest =>
    simp only [due_of_test, List.head?_cons, Option.some.injEq]
    exact ⟨fun ⟨hd, hreached⟩ => ⟨i, hd, rfl, hreached⟩, fun ⟨_, hd, hi, hreached⟩ => hi ▸ ⟨hd, hreached⟩⟩

theorem dueS4_iff : s.dueS4 = some d ↔ ∃ i, d = .deadline .s4 i ∧ (s.list .s4).head? = some i
    ∧ (∀ e ∈ s.cuts.watch, e.index ≠ i)
    ∧ s.isReached .s4 (addCounts (s.record i).lead ((s.sec .s4).cfg.toCounts
      (s.expectedLen i .s4 + (s.sec .s4).cfg.distance + (s.sec .s4).cfg.window) + 1)) = true := by
  unfold dueS4
  cases h : s.list .s4 with
  | nil => simp
  | cons i rest =>
    have hwatch : s.cuts.watch.any (fun e => decide (e.index = i)) = false ↔ ∀ e ∈ s.cuts.watch, e.index ≠ i := by simp
    simp only [List.head?_cons, Option.some.injEq, Option.ite_none_left_eq_some, due_of_test, Bool.not_eq_true, hwatch]
    constructor
    · rintro ⟨hleft, rfl, hreached⟩
      exact ⟨i, rfl, rfl, hleft, hreached⟩
    · rintro ⟨_, rfl, rfl, hleft, hreached⟩
      exact ⟨hleft, rfl, hreached⟩

theorem dueCommit_iff : s.dueCommit = some d ↔ ∃ i, d = .commit i
    ∧ (s.list .s2).find? (fun j => !(s.record j).committed) = some i
    ∧ s.isReached .s2 (addCounts (s.record i).lead ((s.sec .s2).cfg.toCounts (s.sec .s2).cfg.commit)) = true := by
  unfold dueCommit
  cases h : (s.list .s2).find? (fun j => !(s.record j).committed) with
  | none => simp
  | some i =>
    simp only [due_of_test, Option.some.injEq]
    exact ⟨fun ⟨hd, hreached⟩ => ⟨i, hd, rfl, hreached⟩, fun ⟨_, hd, hi, hreached⟩ => hi ▸ ⟨hd, hreached⟩⟩

theorem dueSort_iff : s.dueSort = some d ↔ ∃ i, d = .sortCommit i
    ∧ (s.list .s4).find? (fun j => !(s.record j).sortCommitted) = some i
    ∧ s.isReached .s4 (addCounts (s.record i).lead ((s.sec .s4).cfg.toCounts (s.sec .s4).cfg.sort)) = true := by
  unfold dueSort
  cases h : (s.list .s4).find? (fun j => !(s.record j).sortCommitted) with
  | none => simp
  | some i =>
    simp only [due_of_test, Option.some.injEq]
    exact ⟨fun ⟨hd, hreached⟩ => ⟨i, hd, rfl, hreached⟩, fun ⟨_, hd, hi, hreached⟩ => hi ▸ ⟨hd, hreached⟩⟩

theorem dueEntry_iff {x : Sec} : s.dueEntry x = some d ↔ ∃ e, d = .fire x e
    ∧ (s.sec x).schedule.find? (fun a => s.isReached x a.due) = some e := by
  rw [dueEntry, Option.map_eq_some_iff]
  exact exists_congr fun e => by rw [and_comm, eq_comm]

theorem dueRunOff_iff : s.dueRunOff = some d ↔ ∃ e, d = .runOff e.index
    ∧ s.cuts.watch.find? (fun a => s.isReached .s4 a.due) = some e := by
  rw [dueRunOff, Option.map_eq_some_iff]
  exact exists_congr fun e => by rw [and_comm, eq_comm]

theorem mem_due {stepped : Option Sec} : d ∈ s.due stepped ↔ s.dueEye stepped = some d ∨ s.dueOverlength = some d
    ∨ (s.dueDeadline .s1 = some d ∨ s.dueDeadline .s2 = some d ∨ s.dueDeadline .s3 = some d ∨ s.dueS4 = some d)
    ∨ s.dueCommit = some d ∨ s.dueSort = some d
    ∨ (s.dueEntry .s1 = some d ∨ s.dueEntry .s2 = some d ∨ s.dueEntry .s3 = some d ∨ s.dueEntry .s4 = some d)
    ∨ s.dueRunOff = some d := by
  simp only [due, List.mem_filterMap, id, List.mem_cons, List.not_mem_nil, or_false, exists_eq_right, or_assoc, eq_comm]

end

/-! ### The overlength strip (R48) and an allocation that leaves records enough (R13, R182) -/

theorem allocate_of_enough {s : State} {i : Fin 64} {rest : List (Fin 64)} (len : Nat) (lead : Pos) (d : Disposition)
    (p : ProfileStatus) (enough : s.run.settings.threshold ≤ rest.length) : s.allocate i rest len lead d p = { s with
      pool := { records := s.pool.records.set i
                  { tag := s.nextTag, loc := .s1, bank := s.solver.active, len := len, lead := lead, disp := d, profile := p }
                free := rest
                onSec := s.pool.onSec.set 0 (s.pool.onSec[0] ++ [i])
                tagCounter := stepTag s.nextTag }
      scan := { s.scan with tallies := s.scan.tallies.set i {} } } :=
  if_neg (Nat.not_lt.mpr enough)

theorem overlength_untracked {s : State} {lead : Pos} (empty : s.pool.free = []) : s.overlength lead
    = ({ s with gauge := .overlong } : State).countGauged.countUntracked := by
  unfold overlength
  dsimp only
  rw [show (({ s with gauge := .overlong } : State).countGauged).pool.free = [] from empty]

theorem overlength_allocates {s : State} {lead : Pos} {i : Fin 64} {rest : List (Fin 64)} (head : s.pool.free = i :: rest) :
    s.overlength lead = ((({ s with gauge := .overlong } : State).countGauged).allocate i rest 3000 lead
      (.runoff .overlength) .unchecked).modCounters (fun c => { c with overlength := c.overlength + 1 }) := by
  unfold overlength
  dsimp only
  rw [show (({ s with gauge := .overlong } : State).countGauged).pool.free = i :: rest from head]

theorem runOff_loses {s : State} {i : Fin 64} (h : ∀ why, (s.record i).disp ≠ .runoff why) : s.runOff i = s.lose i .s4 := by
  unfold runOff
  split
  · rename_i why hdisp
    exact absurd hdisp (h why)
  · rfl

theorem runOff_leaves {s : State} {i : Fin 64} {why : Reason} (h : (s.record i).disp = .runoff why) : s.runOff i
    = ((s.offer (.piece ((s.record i).info none))).release i).modCounters (fun c => { c with runoff := c.runoff + 1 }) := by
  unfold runOff
  rw [h]

end State

/-- Settles O15: each of the thirteen tests is a position of one kind. -/
theorem duePositions : Obligations.DuePositions := by
  refine ⟨?waits, ?acts, ?overlength⟩
  case waits =>
    intro s stepped past
    simp only [State.mem_due, State.dueEye_iff, State.dueOverlength_iff, State.dueDeadline_iff, State.dueS4_iff,
      State.dueCommit_iff, State.dueSort_iff, State.dueEntry_iff, State.dueRunOff_iff]
    refine ⟨?eye, ?long, ?deadline, ?last, ?commit, ?sort, ?fire, ?runOff⟩
    case eye => simp
    case long => simp
    case deadline =>
      intro x i hx
      cases x <;> simp_all [past, State.deadline, SectionCfg.hi]
    case last => simp [past, State.expectedLen]
    case commit => simp [past]
    case sort => simp [past]
    case fire =>
      intro x e
      cases x <;> simp
    case runOff =>
      intro i
      simp only [reduceCtorEq, false_and, exists_const, exists_false, false_or, Due.runOff.injEq]
      exact exists_congr fun e => by rw [and_comm, eq_comm (a := i)]
  case acts =>
    intro s
    exact ⟨fun x e => rfl, fun x i => rfl, fun i => rfl, fun i => rfl, fun x e => rfl, fun i h => State.runOff_loses h,
      fun i why h => State.runOff_leaves h⟩
  case overlength =>
    intro s lead counted gauged
    refine ⟨fun empty => State.overlength_untracked empty, fun i rest head enough => ?_⟩
    refine (State.overlength_allocates head).trans ?_
    rw [State.allocate_of_enough _ _ _ _ (by exact enough)]
    rfl

end Sys2Proof.Machine
end

section
/-! The gauge and the allocation of a measured strip (R14, R45 to R47, R50, R51, R62). -/

namespace Sys2Proof.Machine

open Sys2Proof.Config

namespace State

/-! ### A strip that is unscanned or not yet -/

/-- A record stored as unscanned, and then counted, or as undecided. -/
def marked (i : Fin 64) (unscanned : Bool) (r : Record) (s : State) : State :=
  ({ s with run := { s.run with counters := { s.run.counters with
    unscanned := if unscanned then s.run.counters.unscanned + 1 else s.run.counters.unscanned } } } : State).setRecord i
    { r with disp := if unscanned then .bin s.run.settings.regrade .unscanned else .undecided }

section
variable {s : State} {i : Fin 64} {b : Bool} {r : Record} (onLine : r.loc ≠ .free) (unplaced : r.placement = none)

theorem marked_record : (s.marked i b r).record i
    = { r with disp := if b then .bin s.run.settings.regrade .unscanned else .undecided } := record_setRecord ..

include onLine

theorem marked_live : (s.marked i b r).live i = true := by
  unfold live
  rw [marked_record]
  exact decide_eq_true onLine

include unplaced

theorem marked_unscanned : (s.marked i b r).markUnscanned i = s.marked i true r := by
  have hsame : ({ r with placement := none } : Record) = r := by rw [← unplaced]
  rw [markUnscanned_eq (marked_live onLine), marked_record, unscannedAs]
  have hback : (s.marked i b r).handedBack
      { r with disp := if b then .bin s.run.settings.regrade .unscanned else .undecided } = s.marked i b r := by
    rw [handedBack, show Record.placement _ = none from unplaced]
  cases b with
  | true =>
    dsimp only [if_true] at hback ⊢
    rw [hback]
    unfold marked
    simp [setRecord, ← unplaced]
  | false =>
    dsimp only at hback ⊢
    rw [hback]
    unfold marked
    simp [setRecord, ← unplaced]

/-- A field of the record other than those written here is changed, and the strip is unscanned. -/
theorem marked_write_unscanned {f : Record → Record} (disp : ∀ q d, f { q with disp := d } = { f q with disp := d })
    (loc : (f r).loc = r.loc) (placement : (f r).placement = r.placement) :
    ((s.marked i b r).writeRecord i f).markUnscanned i = s.marked i true (f r) := by
  have hwrite : (s.marked i b r).writeRecord i f = s.marked i b (f r) := by
    rw [writeRecord, if_pos (marked_live onLine), marked_record, disp]
    simp [marked, setRecord]
  rw [hwrite, marked_unscanned (by rw [loc]; exact onLine) (by rw [placement, unplaced])]

theorem marked_degradedFaces : (s.marked i b r).degradedFaces i
    = s.marked i (b || s.scan.top.degraded || s.scan.bottom.degraded) { r with
      top := if s.scan.top.degraded then .degraded else r.top
      bottom := if s.scan.bottom.degraded then .degraded else r.bottom } := by
  unfold degradedFaces
  rw [show (s.marked i b r).scan = s.scan from rfl]
  cases top : s.scan.top.degraded <;> cases bottom : s.scan.bottom.degraded
  case false.false => simp
  case true.false =>
    simp only [if_true, Bool.or_true, Bool.or_false]
    exact marked_write_unscanned onLine unplaced (fun _ _ => rfl) rfl rfl
  case false.true =>
    simp only [if_true, Bool.or_true]
    exact marked_write_unscanned onLine unplaced (fun _ _ => rfl) rfl rfl
  case true.true =>
    simp only [if_true, Bool.or_true]
    rw [marked_write_unscanned onLine unplaced (fun _ _ => rfl) rfl rfl]
    exact marked_write_unscanned (r := { r with top := .degraded }) onLine unplaced (fun _ _ => rfl) rfl rfl

omit onLine unplaced in
theorem marked_announce_room (room : s.scan.starts.length < 8) : (s.marked i b r).announce i
    = { s.marked i b r with scan := { s.scan with starts := s.scan.starts ++ [⟨r.tag, r.len⟩] } } := by
  unfold announce
  rw [marked_record]
  exact if_pos room

theorem marked_announce_full (full : 8 ≤ s.scan.starts.length) : (s.marked i b r).announce i
    = s.marked i true { r with profile := .unchecked } := by
  unfold announce
  exact (if_neg (Nat.not_lt.mpr full)).trans (marked_write_unscanned onLine unplaced (fun _ _ => rfl) rfl rfl)

end

/-- The head of FREE at the tail of S1, its record not yet written. -/
def joined (i : Fin 64) (rest : List (Fin 64)) (s : State) : State := { s with
  pool := { s.pool with
    free := rest
    onSec := s.pool.onSec.set 0 (s.pool.onSec[0] ++ [i])
    tagCounter := stepTag s.nextTag }
  scan := { s.scan with tallies := s.scan.tallies.set i {} } }

theorem allocate_undecided {s : State} {i : Fin 64} {rest : List (Fin 64)} {len : Nat} {lead : Pos} {p : ProfileStatus}
    (enough : s.run.settings.threshold ≤ rest.length) : s.allocate i rest len lead .undecided p
    = (s.joined i rest).marked i false
      { tag := s.nextTag, loc := .s1, bank := s.solver.active, len := len, lead := lead, profile := p } :=
  allocate_of_enough len lead .undecided p enough

/-! ### Edges at eye G (R45 to R47) -/

section
variable {s : State} {pos lead far : Pos} (measuring : s.gauge = .measuring lead far)
  (passed : (pos - lead).toNat < 8388608)

include measuring passed

theorem gaugeTail_noise (noise : (s.sec .s1).cfg.toMm (pos - lead).toNat < 20) :
    s.gaugeTail pos = { s with gauge := .idle } := by
  unfold gaugeTail
  rw [measuring]
  dsimp only
  rw [if_neg (Nat.not_le.mpr passed), if_pos noise]

theorem gaugeTail_strip (strip : 20 ≤ (s.sec .s1).cfg.toMm (pos - lead).toNat) : s.gaugeTail pos
    = ({ s with gauge := .idle } : State).gaugedStrip ((s.sec .s1).cfg.toMm (pos - lead).toNat) lead := by
  unfold gaugeTail
  rw [measuring]
  dsimp only
  rw [if_neg (Nat.not_le.mpr passed), if_neg (Nat.not_lt.mpr strip)]

end

theorem gaugedStrip_untracked {s : State} {mm : Nat} {lead : Pos} (empty : s.pool.free = []) :
    s.gaugedStrip mm lead = s.countGauged.countUntracked := by
  unfold gaugedStrip
  dsimp only
  rw [show s.countGauged.pool.free = [] from empty]

section
variable {s : State} {i : Fin 64} {rest : List (Fin 64)} (head : s.pool.free = i :: rest)

include head

theorem gaugedStrip_undersize {mm : Nat} (lead : Pos) (short : mm < 150) : s.gaugedStrip mm lead
    = (s.countGauged.allocate i rest mm lead (.runoff .undersize) .unchecked).modCounters
      (fun c => { c with undersize := c.undersize + 1 }) := by
  unfold gaugedStrip
  dsimp only
  rw [show s.countGauged.pool.free = i :: rest from head]
  exact if_pos short

theorem gaugedStrip_tracked {mm : Nat} (lead : Pos) (long : 150 ≤ mm) : s.gaugedStrip mm lead
    = ((s.countGauged.allocate i rest (min 3000 mm) lead .undecided s.countGauged.startProfile).degradedFaces i).announce
      i := by
  unfold gaugedStrip
  dsimp only
  rw [show s.countGauged.pool.free = i :: rest from head]
  exact if_neg (Nat.not_lt.mpr long)

end

end State

/-- Settles O13: the allocation, the degraded faces and the announcement, one after the other. -/
theorem gaugeMeasures : Obligations.GaugeMeasures := by
  refine ⟨?lead, ?tail⟩
  case lead =>
    intro s pos begun
    exact ⟨fun none' => if_neg (by rw [show begun.solver.commitPending = false from none']; decide),
      fun pending => if_pos pending⟩
  case tail =>
    intro s pos lead far measuring passed mm rested counted gauged
    refine ⟨fun noise => State.gaugeTail_noise measuring passed noise, fun strip empty => ?untracked,
      fun i rest head enough => ?tracked⟩
    case untracked =>
      exact (State.gaugeTail_strip measuring passed strip).trans (State.gaugedStrip_untracked empty)
    case tracked =>
      intro placed blank
      refine ⟨fun strip short => ?undersize, fun long => ?scanned⟩
      case undersize =>
        refine (State.gaugeTail_strip measuring passed strip).trans ?_
        rw [State.gaugedStrip_undersize (by exact head) lead short, State.allocate_of_enough _ _ _ _ (by exact enough)]
        rfl
      case scanned =>
        intro full spoilt
        refine (State.gaugeTail_strip measuring passed (Nat.le_trans (by decide) long)).trans ?_
        have hs1 : Loc.s1 ≠ .free := by decide
        have hfaces := State.marked_degradedFaces (s := rested.countGauged.joined i rest) (i := i) (b := false)
          (r := { tag := s.nextTag, loc := .s1, bank := s.solver.active, len := min 3000 mm, lead := lead,
                  profile := rested.countGauged.startProfile }) hs1 rfl
        rw [State.gaugedStrip_tracked (by exact head) lead long, State.allocate_undecided (by exact enough)]
        refine (congrArg (State.announce i) hfaces).trans ?_
        by_cases hfull : 8 ≤ s.scan.starts.length
        · have hfull' : full = true := by simp [full, hfull]
          have hspoilt : spoilt = true := by simp [spoilt, hfull']
          rw [State.marked_announce_full hs1 rfl (by exact hfull), hspoilt, hfull']
          simp [State.marked, State.joined, State.setRecord, State.countGauged, State.modCounters, placed, blank, counted,
            rested, gauged, mm]
          exact ⟨rfl, rfl⟩
        · have hfull' : full = false := by simp [full, hfull]
          have hspoilt : spoilt = (s.scan.top.degraded || s.scan.bottom.degraded) := by simp [spoilt, hfull']
          rw [State.marked_announce_room (by exact Nat.not_le.mp hfull), hspoilt, hfull']
          simp [State.marked, State.joined, State.setRecord, State.countGauged, State.modCounters, placed, blank, counted,
            rested, gauged, mm, State.startProfile]
          exact ⟨rfl, rfl⟩

end Sys2Proof.Machine
end

section
/-! Lead edges at the eyes T, M and K (R36, R37). -/

namespace Sys2Proof.Machine

open Sys2Proof.Config

/-! ### The window (R36) -/

theorem SectionCfg.toCounts_mono (c : SectionCfg) {m n : Nat} (h : m ≤ n) : c.toCounts m ≤ c.toCounts n :=
  Nat.div_le_div_right (by omega)

theorem SectionCfg.lo_le_hi (c : SectionCfg) : c.lo ≤ c.hi := c.toCounts_mono (by omega)

namespace State

/-! ### The list of a section that a record leaves -/

theorem live_of_mem_list {s : State} (lists : s.pool.Partitioned) {x : Sec} {i : Fin 64} (h : i ∈ s.list x) :
    s.live i = true := by
  rw [live_iff, (mem_list_iff lists x i).mp h]
  cases x <;> decide

theorem lose_partitioned {s : State} (lists : s.pool.Partitioned) (i : Fin 64) (x : Sec) :
    (s.lose i x).pool.Partitioned := (lose_calm Calm.rfl').lists lists

theorem setRecord_live {s : State} {i : Fin 64} {r : Record} (h : r.loc = (s.record i).loc) (j : Fin 64) :
    (s.setRecord i r).live j = s.live j := by
  unfold live
  by_cases hj : j = i
  · rw [hj, record_setRecord, h]
  · rw [record_setRecord_of_ne _ _ _ _ hj]

/-- A loss ends in the release of a record that is live still, from the same lists. -/
theorem lose_release {s : State} {i : Fin 64} (live : s.live i = true) (x : Sec) :
    ∃ u : State, s.lose i x = u.release i ∧ u.live i = true ∧ ∀ y, u.list y = s.list y := by
  refine ⟨_, lose_eq x live, ?_, fun y => ?_⟩
  · have hpool : (s.handedBack (s.record i)).pool = s.pool := (handedBack_moved _ s).pool
    rw [live_of_pool ((PocketsMoved.refl _).offer _).pool]
    refine (setRecord_live (s := s.handedBack (s.record i)) ?_ i).trans ((live_of_pool hpool i).trans live)
    exact congrArg (fun p : Pool => p.records[i].loc) hpool.symm
  · have honSec : (s.handedBack (s.record i)).list y = s.list y :=
      congrArg (fun p : Pool => p.onSec[y.idx]) (handedBack_moved _ s).pool
    exact (congrArg (fun p : Pool => p.onSec[y.idx]) ((PocketsMoved.refl _).offer _).pool).trans honSec

theorem lose_list {s : State} {i : Fin 64} (live : s.live i = true) (x y : Sec) :
    (s.lose i x).list y = (s.list y).filter (fun j => decide (j ≠ i)) := by
  obtain ⟨u, hlose, hlive, hlist⟩ := lose_release live x
  rw [hlose, (release_released hlive).list, hlist]

theorem lose_list_length {s : State} {x : Sec} {i : Fin 64} {rest : List (Fin 64)} (lists : s.pool.Partitioned)
    (head : s.list x = i :: rest) : ((s.lose i x).list x).length ≤ rest.length := by
  have live : s.live i = true := live_of_mem_list lists (x := x) (by simp [head])
  rw [lose_list live, head, List.filter_cons_of_neg (by simp)]
  exact List.length_filter_le ..

theorem list_length_le {s : State} (lists : s.pool.Partitioned) (x : Sec) : (s.list x).length ≤ 64 := by
  have h := (lists.secNodup x).length_le_card
  rwa [Fintype.card_fin] at h

/-! ### The branches of a lead edge -/

section
variable {s : State} {a b : Sec} {k : Fin 3} {pos : Pos} {n : Nat}

theorem handoffEdge_empty (empty : s.list a = []) : s.handoffEdge a b k pos (n + 1) = s.stray b k := by
  rw [handoffEdge, empty]

variable {i : Fin 64} {rest : List (Fin 64)} (head : s.list a = i :: rest)

include head

theorem handoffEdge_head : s.handoffEdge a b k pos (n + 1) = if s.travel a i < (s.sec a).cfg.lo then s.stray b k
    else if s.travel a i ≤ (s.sec a).cfg.hi then s.matched a b i pos
    else if s.isReached a (s.deadline a i) then handoffEdge a b k pos n (s.lose i a)
    else s.stray b k := by
  rw [handoffEdge, head]

end

/-- Fuel beyond the members of the section before is of no account: each loss takes the head away. -/
theorem handoffEdge_fuel (a b : Sec) (k : Fin 3) (pos : Pos) : ∀ n (s : State), s.pool.Partitioned →
    (s.list a).length < n → s.handoffEdge a b k pos (n + 1) = s.handoffEdge a b k pos n := by
  intro n
  induction n with
  | zero => exact fun s _ h => absurd h (Nat.not_lt_zero _)
  | succ n ih =>
    intro s lists enough
    cases head : s.list a with
    | nil => rw [handoffEdge_empty head, handoffEdge_empty head]
    | cons i rest =>
      have hshorter := lose_list_length lists head
      rw [head, List.length_cons] at enough
      rw [handoffEdge_head head, handoffEdge_head (n := n) head, ih (s.lose i a) (lose_partitioned lists i a) (by omega)]

theorem stray_eq (b : Sec) (k : Fin 3) (s : State) : s.stray b k
    = (({ s with run := { s.run with counters := { s.run.counters with
        stray := s.run.counters.stray.set k (s.run.counters.stray[k] + 1) } } } : State).offer (.stray b)).setSec b
      { s.sec b with awaiting := none } := by
  have hsec : ∀ t : State, (t.offer (.stray b)).sec b = t.sec b := fun t =>
    congrArg (·[b.idx]) ((PocketsMoved.refl t).offer _).secs
  unfold stray
  rw [modSec_eq, hsec]
  rfl

theorem list_setList_of_ne {a b : Sec} (l : List (Fin 64)) (s : State) (h : b ≠ a) : (s.setList a l).list b = s.list b := by
  cases a <;> cases b <;> simp_all [list, setList]

theorem matched_eq {s : State} {a b : Sec} {i : Fin 64} {rest : List (Fin 64)} (pos : Pos) (head : s.list a = i :: rest)
    (apart : b ≠ a) (live : s.live i = true) : s.matched a b i pos
    = if b = .s3 then ((((s.setList a rest).setList b (s.list b ++ [i])).setRecord i { s.record i with
        loc := locOf b
        lead := pos }).setSec b { s.sec b with awaiting := some ⟨i, (s.record i).tag, pos⟩ }).endMatch i
      else (((s.setList a rest).setList b (s.list b ++ [i])).setRecord i { s.record i with
        loc := locOf b
        lead := pos }).setSec b { s.sec b with awaiting := some ⟨i, (s.record i).tag, pos⟩ } := by
  have hwrite : ((s.setList a rest).setList b (s.list b ++ [i])).writeRecord i
      (fun r => { r with loc := locOf b, lead := pos })
      = ((s.setList a rest).setList b (s.list b ++ [i])).setRecord i { s.record i with loc := locOf b, lead := pos } :=
    if_pos live
  unfold matched
  dsimp only
  rw [head, List.erase_cons_head, list_setList_of_ne rest s apart, hwrite]
  rfl

end State

theorem followEdge_lead {a b : Sec} {k : Fin 3} (eye : (a, b, k) ∈ [(Sec.s1, Sec.s2, (0 : Fin 3)), (.s2, .s3, 1), (.s3, .s4, 2)])
    (pos : Pos) (s : State) : s.followEdge b true pos = s.handoffEdge a b k pos 65 := by
  simp only [List.mem_cons, Prod.mk.injEq, List.not_mem_nil, or_false] at eye
  obtain ⟨rfl, rfl, rfl⟩ | ⟨rfl, rfl, rfl⟩ | ⟨rfl, rfl, rfl⟩ := eye <;> rfl

/-- Settles O14: one branch of the handoff test for each place of the head, and one loss for each head past its deadline. -/
theorem handoffEdges : Obligations.HandoffEdges := by
  intro s pos a b k eye c counters strayed
  have hfollow := followEdge_lead eye pos
  have apart : b ≠ a := by
    simp only [List.mem_cons, Prod.mk.injEq, List.not_mem_nil, or_false] at eye
    obtain ⟨rfl, rfl, -⟩ | ⟨rfl, rfl, -⟩ | ⟨rfl, rfl, -⟩ := eye <;> decide
  refine ⟨fun empty => ?empty, fun i rest head => ?head⟩
  case empty => rw [hfollow, State.handoffEdge_empty empty, State.stray_eq]
  case head =>
    intro travel
    have hhead := State.handoffEdge_head (b := b) (k := k) (pos := pos) (n := 64) head
    refine ⟨fun below => ?below, fun low high live => ?within, fun above => ?above⟩
    case below => rw [hfollow, hhead, if_pos (by exact below), State.stray_eq]
    case within =>
      intro moved
      rw [hfollow, hhead, if_neg (by exact Nat.not_lt.mpr low), if_pos (by exact high),
        State.matched_eq pos head apart live]
    case above =>
      intro deadline
      have hbeyond : ¬ s.travel a i ≤ (s.sec a).cfg.hi := Nat.not_le.mpr above
      refine ⟨fun reached lists => ?lost, fun ahead low => ?strays⟩
      case lost =>
        have hlow : ¬ s.travel a i < (s.sec a).cfg.lo := fun h =>
          hbeyond (Nat.le_trans (Nat.le_of_lt h) (s.sec a).cfg.lo_le_hi)
        have hshorter := State.lose_list_length lists head
        have hlength := State.list_length_le lists a
        rw [head, List.length_cons] at hlength
        rw [hfollow, hfollow, hhead, if_neg hlow, if_neg hbeyond, if_pos (by exact reached)]
        exact (State.handoffEdge_fuel a b k pos 64 _ (State.lose_partitioned lists i a) (by omega)).symm
      case strays =>
        rw [hfollow, hhead, if_neg (by exact Nat.not_lt.mpr low), if_neg hbeyond,
          if_neg (by rw [Bool.not_eq_true]; exact ahead), State.stray_eq]

end Sys2Proof.Machine
end

section
/-! Faults of a strip: the disposition that a fault writes, and the end-head entries it withdraws (R6, R7, R40, R109). -/

namespace Sys2Proof.Machine

open Sys2Proof.Config

/-! ### A disposition that only the run-off stands against (R6) -/

/-- A disposition for the run-off stands against every write. -/
def Disposition.falls : Disposition → Bool
  | .runoff _ => false
  | _ => true

theorem Disposition.takes_of_out {d w : Disposition} (out : w.isBinOrRunoff = true) : d.takes w = d.falls := by
  cases w <;> simp only [isBinOrRunoff, Bool.false_eq_true] at out <;> cases d <;> rfl

/-- One end head's entries of a record withdrawn from a schedule, when the advance is still in it (R40, R109). -/
def withoutHead (i : Fin 64) (head : Option (Fin 6)) (l : List Entry) : List Entry :=
  match head with
  | none => l
  | some p =>
    if l.any (fun e => decide (e.index = i ∧ e.action = .pairTarget p ⟨true, false⟩)) then
      l.filter (fun e => !(decide (e.index = i) &&
        decide (e.action = .pairTarget p ⟨true, false⟩ ∨ e.action = .pairTarget p ⟨false, true⟩)))
    else l

theorem withoutHead_some (i : Fin 64) (p : Fin 6) (l : List Entry) : withoutHead i (some p) l
    = l.filter (fun e => !(decide (e.index = i) &&
      (l.any (fun e => decide (e.index = i ∧ e.action = .pairTarget p ⟨true, false⟩))
        && decide (e.action = .pairTarget p ⟨true, false⟩ ∨ e.action = .pairTarget p ⟨false, true⟩)))) := by
  unfold withoutHead
  dsimp only
  generalize l.any (fun e => decide (e.index = i ∧ e.action = .pairTarget p ⟨true, false⟩)) = pending
  cases pending <;> simp

/-- The withdrawal for one head leaves a pending advance of another in the schedule. -/
theorem pending_withoutHead {i : Fin 64} {p q : Fin 6} (apart : q ≠ p) (l : List Entry) :
    (withoutHead i (some p) l).any (fun e => decide (e.index = i ∧ e.action = .pairTarget q ⟨true, false⟩))
    = l.any (fun e => decide (e.index = i ∧ e.action = .pairTarget q ⟨true, false⟩)) := by
  unfold withoutHead
  dsimp only
  split
  · rw [Bool.eq_iff_iff]
    simp only [List.any_filter, List.any_eq_true, Bool.and_eq_true, decide_eq_true_eq]
    refine exists_congr fun e => and_congr_right fun _ => ⟨fun h => h.2, fun h => ⟨?_, h⟩⟩
    simp [h.2, apart]
  · rfl

/-- A head whose entries are withdrawn has no pending advance. -/
theorem pending_withoutHead_self (i : Fin 64) (p : Fin 6) (l : List Entry) :
    (withoutHead i (some p) l).any (fun e => decide (e.index = i ∧ e.action = .pairTarget p ⟨true, false⟩)) = false := by
  unfold withoutHead
  dsimp only
  split
  · simp only [List.any_filter, List.any_eq_false]
    intro e _
    by_cases h : e.index = i ∧ e.action = .pairTarget p ⟨true, false⟩ <;> simp [h]
  · rename_i h
    exact Bool.not_eq_true _ ▸ h

namespace State

theorem withoutHead_twice (i : Fin 64) (s : State) :
    withoutHead i s.cuts.groovePair (withoutHead i s.cuts.tonguePair (s.sec .s3).schedule) = s.withdrawn i := by
  unfold withdrawn
  cases tongue : s.cuts.tonguePair with
  | none =>
    cases groove : s.cuts.groovePair with
    | none => simp [withoutHead]
    | some q => simp [withoutHead_some, show withoutHead i none (s.sec .s3).schedule = (s.sec .s3).schedule from rfl]
  | some p =>
    cases groove : s.cuts.groovePair with
    | none => simp [withoutHead_some, show ∀ l, withoutHead i none l = l from fun _ => rfl]
    | some q =>
      rw [withoutHead_some i q]
      by_cases apart : q = p
      · rw [apart, pending_withoutHead_self]
        simp [withoutHead_some]
      · rw [pending_withoutHead apart, withoutHead_some, List.filter_filter]
        refine List.filter_congr fun e _ => ?_
        cases decide (e.index = i) <;> simp [Bool.and_comm]

/-! ### The drain test while a strip is followed (R177) -/

theorem occupied_of_live {s : State} (lists : s.pool.Partitioned) {i : Fin 64} (live : s.live i = true) :
    s.liveList ≠ [] := List.ne_nil_of_mem ((mem_liveList lists i).mpr live)

theorem drainTest_of_occupied {s : State} (h : s.liveList ≠ []) : s.drainTest = s := by
  refine if_neg fun k => ?_
  have hdrained := k.2
  unfold drained at hdrained
  simp only [Bool.and_eq_true, List.isEmpty_iff] at hdrained
  obtain ⟨⟨⟨⟨hlist, -⟩, -⟩, -⟩, -⟩ := hdrained
  exact h hlist

theorem keepEntries_of_occupied {s : State} (h : s.liveList ≠ []) (x : Sec) (keep : Entry → Bool) : s.keepEntries x keep
    = s.setSec x { s.sec x with schedule := (s.sec x).schedule.filter keep } := drainTest_of_occupied h

theorem setSec_liveList (x : Sec) (u : SectionUnit) (s : State) : (s.setSec x u).liveList = s.liveList := rfl

theorem setSec_self (x : Sec) (s : State) : s.setSec x (s.sec x) = s := by simp [setSec, sec]

theorem withdrawHead_of_occupied {s : State} (h : s.liveList ≠ []) (i : Fin 64) (head : Option (Fin 6)) :
    s.withdrawHead i head = s.setSec .s3 { s.sec .s3 with schedule := withoutHead i head (s.sec .s3).schedule } := by
  unfold withdrawHead withoutHead
  cases head with
  | none => exact (setSec_self .s3 s).symm
  | some p =>
    dsimp only
    simp only [Bool.decide_and, Bool.decide_or]
    by_cases hp : (s.sec .s3).schedule.any (fun e => decide (e.index = i) && decide (e.action = .pairTarget p .advance)) = true
    · rw [if_pos hp, keepEntries_of_occupied h, if_pos (by exact hp)]
      rfl
    · rw [if_neg hp, if_neg (by exact hp)]
      exact (setSec_self .s3 s).symm

theorem withdrawHeads_of_occupied {s : State} (h : s.liveList ≠ []) (i : Fin 64) :
    s.withdrawHeads i = s.setSec .s3 { s.sec .s3 with schedule := s.withdrawn i } := by
  unfold withdrawHeads
  rw [withdrawHead_of_occupied h, withdrawHead_of_occupied (by exact h), sec_setSec, setSec_setSec, ← withoutHead_twice]

/-! ### A fault's disposition (R6, R7) -/

/-- A record stored as given, and if it falls, with a fault's disposition, its placement handed back. -/
def fallen (falls : Bool) (i : Fin 64) (r : Record) (d : Disposition) (s : State) : State :=
  if falls then (s.handedBack r).setRecord i { r with
    disp := d
    placement := none }
  else s.setRecord i r

theorem writeDisposition_fallen {s : State} {i : Fin 64} {r : Record} {d : Disposition} (live : s.live i = true)
    (loc : r.loc = (s.record i).loc) (out : d.isBinOrRunoff = true) :
    (s.setRecord i r).writeDisposition i d = s.fallen r.disp.falls i r d := by
  have hlive : (s.setRecord i r).live i = true := (setRecord_live loc i).trans live
  unfold writeDisposition fallen
  rw [hlive, record_setRecord, Disposition.takes_of_out out, Bool.true_and]
  split
  · rw [putDisposition_eq out hlive, record_setRecord, handedBack_setRecord]
    simp [setRecord]
  · rfl

theorem write_fallen {s : State} {i : Fin 64} {f : Record → Record} {d : Disposition} (live : s.live i = true)
    (loc : (f (s.record i)).loc = (s.record i).loc) (out : d.isBinOrRunoff = true) :
    (s.writeRecord i f).writeDisposition i d = s.fallen (f (s.record i)).disp.falls i (f (s.record i)) d := by
  rw [writeRecord, if_pos live]
  exact writeDisposition_fallen live loc out

section
variable (falls : Bool) (i : Fin 64) (r : Record) (d : Disposition) (s : State)

theorem fallen_record : (s.fallen falls i r d).record i = { r with
    disp := if falls then d else r.disp
    placement := if falls then none else r.placement } := by
  unfold fallen
  cases falls <;> simp

theorem fallen_record_of_ne {j : Fin 64} (h : j ≠ i) : (s.fallen falls i r d).record j = s.record j := by
  unfold fallen
  split
  · rw [record_setRecord_of_ne _ _ _ _ h]
    exact congrArg (fun p : Pool => p.records[j]) (handedBack_moved r s).pool
  · exact record_setRecord_of_ne _ _ _ _ h

/-- The blocks beside pool and pockets are kept. -/
theorem fallen_keeps : (s.fallen falls i r d).run = s.run ∧ (s.fallen falls i r d).secs = s.secs ∧ (s.fallen falls i r d).cuts = s.cuts
    ∧ (s.fallen falls i r d).out = s.out ∧ (s.fallen falls i r d).pool.onSec = s.pool.onSec := by
  have hmoved := handedBack_moved r s
  have honSec : (s.handedBack r).pool.onSec = s.pool.onSec := congrArg Pool.onSec hmoved.pool
  unfold fallen
  split
  · exact ⟨hmoved.run, hmoved.secs, hmoved.cuts, hmoved.out, honSec⟩
  · exact ⟨rfl, rfl, rfl, rfl, rfl⟩

theorem fallen_of_unplaced (h : falls = false ∨ r.placement = none) :
    (s.fallen falls i r d).pockets = s.pockets ∧ (s.fallen falls i r d).labels = s.labels := by
  unfold fallen
  split
  · rename_i hfalls
    have hback : s.handedBack r = s := by
      rw [handedBack, h.resolve_left (by rw [hfalls]; decide)]
    rw [hback]
    exact ⟨rfl, rfl⟩
  · exact ⟨rfl, rfl⟩

theorem fallen_of_placed {pl : Placement} (hfalls : falls = true) (placed : r.placement = some pl) :
    (s.fallen falls i r d).pockets = ((s.withoutPlacement pl).closingTest pl.pocket).pockets
    ∧ (s.fallen falls i r d).labels = ((s.withoutPlacement pl).closingTest pl.pocket).labels := by
  have hback : s.handedBack r = (s.withoutPlacement pl).closingTest pl.pocket := by rw [handedBack, placed]
  rw [fallen, if_pos hfalls, hback]
  exact ⟨rfl, rfl⟩

theorem fallen_liveList : (s.fallen falls i r d).liveList = s.liveList := by
  obtain ⟨-, -, -, -, honSec⟩ := fallen_keeps falls i r d s
  unfold liveList list
  rw [honSec]

theorem fallen_sec (x : Sec) : (s.fallen falls i r d).sec x = s.sec x := by
  obtain ⟨-, hsecs, -, -, -⟩ := fallen_keeps falls i r d s
  unfold sec
  rw [hsecs]

theorem fallen_withdrawn : (s.fallen falls i r d).withdrawn i = s.withdrawn i := by
  obtain ⟨-, -, hcuts, -, -⟩ := fallen_keeps falls i r d s
  unfold withdrawn
  rw [hcuts, fallen_sec]

end

/-! ### A strip marked suspect (R40) -/

/-- The line counters with the suspect strips counted, unless this one is counted already. -/
def countedSuspect (r : Record) (s : State) : State := { s with run := { s.run with counters := { s.run.counters with
  suspect := if r.faults.suspect then s.run.counters.suspect else s.run.counters.suspect + 1 } } }

theorem markSuspect_eq {s : State} {i : Fin 64} (live : s.live i = true) (occupied : s.liveList ≠ []) :
    s.markSuspect i = (((s.countedSuspect (s.record i)).fallen (s.record i).disp.falls i
        { s.record i with faults := { (s.record i).faults with suspect := true } } (.runoff .suspect)).setSec .s3
          { s.sec .s3 with schedule := s.withdrawn i }).setSec .s4
          { s.sec .s4 with schedule := (s.sec .s4).schedule.filter (fun e => decide (e.index ≠ i)) } := by
  have hcounted : (if (s.record i).faults.suspect then s
      else s.modCounters (fun c => { c with suspect := c.suspect + 1 })) = s.countedSuspect (s.record i) := by
    unfold countedSuspect
    cases (s.record i).faults.suspect <;> rfl
  unfold markSuspect
  dsimp only
  rw [hcounted, write_fallen (by exact live) (by rfl) rfl,
    withdrawHeads_of_occupied (by rw [fallen_liveList]; exact occupied),
    keepEntries_of_occupied (by rw [setSec_liveList, fallen_liveList]; exact occupied), fallen_sec, fallen_withdrawn,
    sec_setSec_of_ne _ _ _ _ (by decide), fallen_sec]
  rfl

end State

end Sys2Proof.Machine
end

section
/-! Tail edges at the eyes T, M and K (R38 to R40, R43). -/

namespace Sys2Proof.Machine

open Sys2Proof.Config

namespace State

/-- A hand-back from a state that differs beside the pocket unit leaves the same pockets and labels. -/
theorem handedBack_blocks {s t : State} (same : s.onto t = t) (hpins : t.pins = s.pins) (hclock : t.clock = s.clock)
    (hbank : t.table t.solver.active = s.table s.solver.active) (pl : Placement) :
    ((t.withoutPlacement pl).closingTest pl.pocket).pockets = ((s.withoutPlacement pl).closingTest pl.pocket).pockets
    ∧ ((t.withoutPlacement pl).closingTest pl.pocket).labels
      = ((s.withoutPlacement pl).closingTest pl.pocket).labels := by
  have h := handedBack_beside same hpins hclock hbank { placement := some pl }
  have hback : ∀ u : State, u.handedBack { placement := some pl } = (u.withoutPlacement pl).closingTest pl.pocket :=
    fun u => rfl
  rw [hback, hback] at h
  rw [h]
  exact ⟨rfl, rfl⟩

/-! ### What a tail edge measures (R38, R43) -/

/-- The strip that an eye awaited is measured, and joins the run-off watch at eye K, once. -/
def measured (x : Sec) (i : Fin 64) (r : Record) (leaves : Pos) (s : State) : State :=
  { (s.setRecord i r).setSec x { s.sec x with awaiting := none } with
    cuts := if x = .s4 ∧ (∀ e ∈ s.cuts.watch, e.index ≠ i)
      then { s.cuts with watch := s.cuts.watch ++ [⟨i, leaves⟩] } else s.cuts }

section
variable (x : Sec) (i : Fin 64) (r : Record) (leaves : Pos) (s : State)

theorem measured_record : (s.measured x i r leaves).record i = r := record_setRecord i r s

theorem measured_record_of_ne {j : Fin 64} (h : j ≠ i) : (s.measured x i r leaves).record j = s.record j :=
  record_setRecord_of_ne i j r s h

theorem measured_schedule (y : Sec) : ((s.measured x i r leaves).sec y).schedule = (s.sec y).schedule := by
  change (((s.setRecord i r).setSec x { s.sec x with awaiting := none }).sec y).schedule = _
  by_cases h : y = x
  · rw [h, sec_setSec]
  · rw [sec_setSec_of_ne _ _ _ _ h]
    rfl

theorem measured_cuts : (s.measured x i r leaves).cuts.cutSet = s.cuts.cutSet
    ∧ (s.measured x i r leaves).cuts.tonguePair = s.cuts.tonguePair
    ∧ (s.measured x i r leaves).cuts.groovePair = s.cuts.groovePair := by
  unfold measured
  dsimp only
  split <;> exact ⟨rfl, rfl, rfl⟩

theorem measured_withdrawn : (s.measured x i r leaves).withdrawn i = s.withdrawn i := by
  obtain ⟨-, htongue, hgroove⟩ := measured_cuts x i r leaves s
  unfold withdrawn
  rw [htongue, hgroove, measured_schedule]

/-- The tail edge's writes, in the order of the model. -/
theorem joinWatch_measured {s : State} {i : Fin 64} (live : s.live i = true) (mm : Nat) (pos : Pos) :
    (if x = .s4 then ((s.writeRecord i (fun r => { r with eyeLength := some mm })).modSec x
        (fun u => { u with awaiting := none })).joinWatch i pos
      else (s.writeRecord i (fun r => { r with eyeLength := some mm })).modSec x (fun u => { u with awaiting := none }))
    = s.measured x i { s.record i with eyeLength := some mm }
      (addCounts pos ((s.sec .s4).cfg.toCounts (s.sec .s4).cfg.distance)) := by
  have hwrite : s.writeRecord i (fun r => { r with eyeLength := some mm })
      = s.setRecord i { s.record i with eyeLength := some mm } := if_pos live
  rw [hwrite]
  unfold measured
  by_cases hx : x = .s4
  · subst hx
    rw [if_pos rfl, joinWatch]
    have hany : s.cuts.watch.any (fun e => decide (e.index = i)) = false ↔ ∀ e ∈ s.cuts.watch, e.index ≠ i := by simp
    by_cases hwatch : ∀ e ∈ s.cuts.watch, e.index ≠ i
    · rw [if_neg (by rw [Bool.not_eq_true]; exact hany.mpr hwatch), if_pos ⟨rfl, hwatch⟩, sec_modSec]
      rfl
    · rw [if_pos (by rw [← Bool.not_eq_false]; exact fun h => hwatch (hany.mp h)), if_neg fun h => hwatch h.2]
      rfl
  · rw [if_neg hx, if_neg fun h => hx h.1]
    rfl

end

theorem expectedLen_eq (i : Fin 64) {x : Sec} (follows : x ≠ .s1) (s : State) : s.expectedLen i x
    = if x ≠ .s2 ∧ i ∈ s.cuts.cutSet then (s.record i).pieceLen else (s.record i).len := by
  cases x <;> simp_all [expectedLen]

theorem tailEdge_none {x : Sec} {pos : Pos} {s : State} (h : (s.sec x).awaiting = none) : s.tailEdge x pos = s := by
  unfold tailEdge
  rw [h]

section
variable {x : Sec} {pos : Pos} {s : State} {a : AwaitTail} (h : (s.sec x).awaiting = some a)

include h

theorem tailEdge_gone (gone : s.live a.index = false ∨ (s.record a.index).tag ≠ a.tag) : s.tailEdge x pos = s := by
  unfold tailEdge
  rw [h]
  refine if_neg fun k => gone.elim (fun hl => ?_) (fun ht => ht k.2)
  rw [hl] at k
  exact absurd k.1 (by decide)

theorem tailEdge_measured (live : s.live a.index = true) (tag : (s.record a.index).tag = a.tag) : s.tailEdge x pos
    = (s.measured x a.index
        { s.record a.index with eyeLength := some (min 65535 ((s.sec x).cfg.toMm (pos - a.pos).toNat)) }
        (addCounts pos ((s.sec .s4).cfg.toCounts (s.sec .s4).cfg.distance))).lengthCheck a.index x
      (min 65535 ((s.sec x).cfg.toMm (pos - a.pos).toNat)) := by
  rw [← joinWatch_measured x live]
  unfold tailEdge
  rw [h]
  exact if_pos ⟨live, tag⟩

end

end State

theorem followEdge_tail {x : Sec} (follows : x ≠ .s1) (pos : Pos) (s : State) :
    s.followEdge x false pos = s.tailEdge x pos := by
  cases x with
  | s1 => exact absurd rfl follows
  | s2 => rfl
  | s3 => rfl
  | s4 => rfl

/-- Settles O16: the measurement, the watch, and the mark of a length that is not the expected one. -/
theorem tailEdges : Obligations.TailEdges := by
  intro s x pos follows
  have hfollow := followEdge_tail follows pos s
  refine ⟨fun h => hfollow.trans (State.tailEdge_none h), fun a h => ⟨fun gone => hfollow.trans (State.tailEdge_gone h gone),
    fun live tag => ?_⟩⟩
  intro i mm r expected leaves measured tolerance
  have hmeasured : s.followEdge x false pos = measured.lengthCheck i x mm :=
    hfollow.trans (State.tailEdge_measured h live tag)
  have hrecord : measured.record i = r := State.measured_record x i r leaves s
  have hother : ∀ j, j ≠ i → measured.record j = s.record j := fun j hj => State.measured_record_of_ne x i r leaves s hj
  obtain ⟨hcutSet, -, -⟩ := State.measured_cuts x i r leaves s
  have hexpected : measured.expectedLen i x = expected := by
    rw [State.expectedLen_eq i follows, hrecord]
    exact congrArg (fun l : List (Fin 64) => if x ≠ .s2 ∧ i ∈ l then r.pieceLen else r.len) hcutSet
  have hcheck : measured.lengthCheck i x mm = if tolerance < (mm - expected) + (expected - mm) then measured.markSuspect i
      else measured := by
    rw [State.lengthCheck, hexpected]
    rfl
  refine ⟨⟨hrecord, hother⟩, fun high low => ?within, fun beyond lists => ?beyond⟩
  case within => rw [hmeasured, hcheck, if_neg (by omega)]
  case beyond =>
    intro t falls
    have hlive : measured.live i = true := (State.setRecord_live (r := r) rfl i).trans live
    have hoccupied' : s.liveList ≠ [] := State.occupied_of_live lists live
    have hoccupied : measured.liveList ≠ [] := hoccupied'
    have ht : t = _ := hmeasured.trans ((hcheck.trans (if_pos (by omega))).trans (State.markSuspect_eq hlive hoccupied))
    have hwithdrawn : measured.withdrawn i = s.withdrawn i := State.measured_withdrawn x i r leaves s
    have hschedule : ∀ y, (measured.sec y).schedule = (s.sec y).schedule := State.measured_schedule x i r leaves s
    rw [hrecord, hwithdrawn, hschedule] at ht
    obtain ⟨hrun, hsecs, hcuts, hout, -⟩ := State.fallen_keeps falls i { r with faults := { r.faults with suspect := true } }
      (.runoff .suspect) (measured.countedSuspect r)
    refine ⟨?record, fun j hj => ?other, ?run, fun y => ?sec, ?cuts, ?out, fun unplaced => ?unplaced,
      fun pl hf placed => ?placed⟩
    case record =>
      rw [ht]
      exact State.fallen_record falls i _ _ _
    case other =>
      rw [ht]
      exact (State.fallen_record_of_ne falls i _ _ _ hj).trans (hother j hj)
    case run =>
      rw [ht]
      exact hrun
    case sec =>
      rw [ht]
      cases y with
      | s4 => exact State.sec_setSec ..
      | s3 => exact (State.sec_setSec_of_ne _ _ _ _ (by decide)).trans (State.sec_setSec ..)
      | s1 =>
        rw [State.sec_setSec_of_ne _ _ _ _ (by decide), State.sec_setSec_of_ne _ _ _ _ (by decide), State.fallen_sec,
          ← hschedule .s1]
        rfl
      | s2 =>
        rw [State.sec_setSec_of_ne _ _ _ _ (by decide), State.sec_setSec_of_ne _ _ _ _ (by decide), State.fallen_sec,
          ← hschedule .s2]
        rfl
    case cuts =>
      rw [ht]
      exact hcuts
    case out =>
      rw [ht]
      exact hout
    case unplaced =>
      rw [ht]
      exact State.fallen_of_unplaced falls i _ _ _ unplaced
    case placed =>
      intro u
      rw [ht]
      have h := State.fallen_of_placed falls i { r with faults := { r.faults with suspect := true } } (.runoff .suspect)
        (measured.countedSuspect r) hf placed
      obtain ⟨hpockets, hlabels⟩ := State.handedBack_blocks (s := s) (t := measured.countedSuspect r) rfl rfl rfl rfl pl
      exact ⟨h.1.trans hpockets, h.2.trans hlabels⟩

end Sys2Proof.Machine
end

section
/-! Entries that fire, and the saw cuts (R34, R108, R109). -/

namespace Sys2Proof.Machine

open Sys2Proof.Config

namespace State

/-! ### An entry fires (R34) -/

/-- An entry taken out of its schedule. -/
def fired (x : Sec) (e : Entry) (s : State) : State :=
  s.setSec x { s.sec x with schedule := (s.sec x).schedule.erase e }

section
variable {e : Entry} (s : State)

theorem fireEntry_target {x : Sec} {p : Fin 6} {c : Combo} (action : e.action = .pairTarget p c) : s.fireEntry x e
    = ((s.fired x e).targetRequest (.unit x) (s.record e.index).tag p c).drainTest := by
  unfold fireEntry
  rw [action]
  rfl

theorem fireEntry_saw {l : Fin 24} (action : e.action = .linePulse l) : s.fireEntry .s2 e
    = ((s.fired .s2 e).sawCut e.index l).drainTest := by
  unfold fireEntry
  rw [action]
  rfl

theorem fireEntry_kick {l : Fin 24} (action : e.action = .linePulse l) : s.fireEntry .s4 e
    = ((s.fired .s4 e).kick e.index l).drainTest := by
  unfold fireEntry
  rw [action]
  rfl

end

/-! ### A pulse taken by an unpaired line (R107, R118, R119) -/

/-- A line struck by a pulse. -/
def struck (x : Line) (clock : Nat) : Line := { x with
  state := .pulsing (clock + x.cfg.width)
  phase := if x.state ≠ .off then x.phase else if x.cfg.holdDuty then some (.full (clock + x.cfg.pullIn)) else none }

theorem pulseFrom_eq (x : Line) (clock : Nat) : x.pulseFrom clock = struck x clock := by
  rw [Line.pulseFrom, Line.onPhase_eq]
  rfl

theorem beginPulse_struck (l : Fin 24) (s : State) : s.beginPulse l = { s with out := { s.out with
    lines := s.out.lines.set l (struck (s.line l) s.clock)
    saw := if s.cuts.sawLine = some l then some (s.clock + s.cuts.sawRecovery) else s.out.saw } } := by
  rw [beginPulse_eq, ← pulseFrom_eq]
  rfl

/-! ### Saw cuts (R108, R109) -/

section
variable {i : Fin 64} {l : Fin 24} {s : State}

theorem sawCut_paired {p : Fin 6} (paired : s.pairOf l = some p) :
    s.sawCut i l = s.offer (.lineInPair (.unit .s2) (s.record i).tag l p) := by
  rw [sawCut, paired]

theorem sawCut_made (free : s.pairOf l = none) (ready : s.out.saw = none) : s.sawCut i l
    = { s with out := { s.out with
        lines := s.out.lines.set l (if (s.line l).state = .held then s.line l else struck (s.line l) s.clock)
        saw := some (s.clock + s.cuts.sawRecovery) } } := by
  rw [sawCut, free, ready]
  dsimp only
  by_cases held : (s.line l).state = .held
  · rw [pulseRequest_held held, if_pos held]
    unfold startSaw
    simp [line]
  · rw [pulseRequest_of_ne held, if_neg held, beginPulse_struck]
    rfl

theorem sawCut_missed (free : s.pairOf l = none) (recovering : s.out.saw.isSome = true) :
    s.sawCut i l = s.missedCut i := by
  obtain ⟨t, ht⟩ := Option.isSome_iff_exists.mp recovering
  rw [sawCut, free, ht]

end

/-- The line counters with the missed cuts counted, unless this strip is counted already. -/
def countedMissed (r : Record) (s : State) : State := { s with run := { s.run with counters := { s.run.counters with
  cutMissed := if r.faults.cutMissed then s.run.counters.cutMissed else s.run.counters.cutMissed + 1 } } }

/-- A missed cut: the strip falls before its sort commit, and its end-head entries are withdrawn. -/
theorem missedCut_eq {s : State} {i : Fin 64} (live : s.live i = true) (occupied : s.liveList ≠ []) : s.missedCut i
    = ((s.countedMissed (s.record i)).fallen (!(s.record i).sortCommitted && (s.record i).disp.falls) i
        { s.record i with faults := { (s.record i).faults with cutMissed := true } }
        (.bin s.run.settings.regrade .cutMissed)).setSec .s3 { s.sec .s3 with schedule := s.withdrawn i } := by
  have hcounted : (if (s.record i).faults.cutMissed then s
      else s.modCounters (fun c => { c with cutMissed := c.cutMissed + 1 })) = s.countedMissed (s.record i) := by
    unfold countedMissed
    cases (s.record i).faults.cutMissed <;> rfl
  have hwrite : (s.countedMissed (s.record i)).writeRecord i
      (fun r => { r with faults := { r.faults with cutMissed := true } })
      = (s.countedMissed (s.record i)).setRecord i
        { s.record i with faults := { (s.record i).faults with cutMissed := true } } := if_pos live
  have hfallen : (if (s.record i).sortCommitted then (s.countedMissed (s.record i)).setRecord i
        { s.record i with faults := { (s.record i).faults with cutMissed := true } }
      else ((s.countedMissed (s.record i)).setRecord i
        { s.record i with faults := { (s.record i).faults with cutMissed := true } }).writeDisposition i
          (.bin s.run.settings.regrade .cutMissed))
      = (s.countedMissed (s.record i)).fallen (!(s.record i).sortCommitted && (s.record i).disp.falls) i
        { s.record i with faults := { (s.record i).faults with cutMissed := true } }
        (.bin s.run.settings.regrade .cutMissed) := by
    cases (s.record i).sortCommitted
    · exact writeDisposition_fallen (s := s.countedMissed (s.record i)) live rfl rfl
    · rfl
  unfold missedCut
  dsimp only
  rw [hcounted, hwrite, record_setRecord]
  refine (congrArg (State.withdrawHeads i) hfallen).trans ?_
  rw [withdrawHeads_of_occupied (by rw [fallen_liveList]; exact occupied), fallen_sec, fallen_withdrawn]
  rfl

theorem fired_withdrawn (e : Entry) (i : Fin 64) (s : State) : (s.fired .s2 e).withdrawn i = s.withdrawn i := by
  unfold withdrawn fired
  rw [sec_setSec_of_ne _ _ _ _ (by decide)]
  rfl

end State

/-- Settles O19: the three branches of a saw cut that falls due, with the strip still followed after each. -/
theorem sawCuts : Obligations.SawCuts := by
  intro s e l lists live action i r fired
  have hoccupied : s.liveList ≠ [] := State.occupied_of_live lists live
  have hfire : s.fireEntry .s2 e = (fired.sawCut i l).drainTest := State.fireEntry_saw s action
  refine ⟨fun p paired => ?paired, fun free ready => ?made, fun free recovering => ?missed⟩
  case paired =>
    have hcut : fired.sawCut i l = fired.offer (.lineInPair (.unit .s2) r.tag l p) := State.sawCut_paired (by exact paired)
    have hlist : (fired.offer (.lineInPair (.unit .s2) r.tag l p)).liveList = s.liveList :=
      congrArg (fun q : Pool => State.liveList { s with pool := q }) ((State.PocketsMoved.refl fired).offer _).pool
    rw [hfire, hcut, State.drainTest_of_occupied (by rw [hlist]; exact hoccupied)]
  case made =>
    intro x struck
    rw [hfire, State.sawCut_made (by exact free) (by exact ready), State.drainTest_of_occupied (by exact hoccupied)]
    rfl
  case missed =>
    intro t falls
    have ht : t = (fired.missedCut i).drainTest := hfire.trans (congrArg State.drainTest (State.sawCut_missed free recovering))
    have hlive : fired.live i = true := live
    rw [State.missedCut_eq hlive (by exact hoccupied), State.drainTest_of_occupied
      (by rw [State.setSec_liveList, State.fallen_liveList]; exact hoccupied)] at ht
    have hwithdrawn : fired.withdrawn i = s.withdrawn i := State.fired_withdrawn e i s
    rw [hwithdrawn] at ht
    obtain ⟨hrun, hsecs, hcuts, hout, -⟩ := State.fallen_keeps falls i { r with faults := { r.faults with cutMissed := true } }
      (.bin s.run.settings.regrade .cutMissed) (fired.countedMissed r)
    refine ⟨?out, ?cuts, ?record, fun j hj => ?other, ?run, fun y => ?sec, fun unplaced => ?unplaced,
      fun pl hf placed => ?placed⟩
    case record =>
      rw [ht]
      exact State.fallen_record falls i _ _ _
    case other =>
      rw [ht]
      exact State.fallen_record_of_ne falls i _ _ _ hj
    case run =>
      rw [ht]
      exact hrun
    case sec =>
      rw [ht]
      cases y with
      | s3 =>
        have hsame : fired.sec .s3 = s.sec .s3 := State.sec_setSec_of_ne _ _ _ _ (by decide)
        rw [State.sec_setSec, hsame]
      | s1 =>
        rw [State.sec_setSec_of_ne _ _ _ _ (by decide), State.fallen_sec]
        exact State.sec_setSec_of_ne _ _ _ _ (by decide)
      | s2 =>
        rw [State.sec_setSec_of_ne _ _ _ _ (by decide), State.fallen_sec]
        exact State.sec_setSec ..
      | s4 =>
        rw [State.sec_setSec_of_ne _ _ _ _ (by decide), State.fallen_sec]
        exact State.sec_setSec_of_ne _ _ _ _ (by decide)
    case cuts =>
      rw [ht]
      exact hcuts
    case out =>
      rw [ht]
      exact hout
    case unplaced =>
      rw [ht]
      exact State.fallen_of_unplaced falls i _ _ _ unplaced
    case placed =>
      intro u
      rw [ht]
      have h := State.fallen_of_placed falls i { r with faults := { r.faults with cutMissed := true } }
        (.bin s.run.settings.regrade .cutMissed) (fired.countedMissed r) hf placed
      obtain ⟨hpockets, hlabels⟩ := State.handedBack_blocks (s := s) (t := fired.countedMissed r) rfl rfl rfl rfl pl
      exact ⟨h.1.trans hpockets, h.2.trans hlabels⟩

end Sys2Proof.Machine
end

section
/-! The insertion of entries (R31, R32) and the end-match decision (R111 to R115). -/

namespace Sys2Proof.Machine

open Sys2Proof.Config

/-! ### The place of an entry (R31) -/

theorem insertEntry_perm (c : Pos) (e : Entry) (l : List Entry) : (insertEntry c e l).Perm (e :: l) := by
  induction l with
  | nil => exact .refl _
  | cons x xs ih =>
    unfold insertEntry
    split
    · exact (ih.cons x).trans (.swap e x xs)
    · exact .refl _

theorem inserted_perm (c : Pos) (es l : List Entry) :
    (es.foldl (fun l e => insertEntry c e l) l).Perm (es ++ l) := by
  induction es generalizing l with
  | nil => exact .refl _
  | cons e es ih => exact (ih _).trans (((insertEntry_perm c e l).append_left es).trans List.perm_middle)

namespace State

/-! ### Entries already reached (R32) -/

/-- No entry of a record in a schedule is reached. -/
def Quiet (s : State) (x : Sec) (i : Fin 64) (l : List Entry) : Prop :=
  ∀ e ∈ l, e.index = i → s.isReached x e.due = false

theorem reachedOf_none {s : State} {x : Sec} {i : Fin 64} (h : s.Quiet x i (s.sec x).schedule) : s.reachedOf x i = none := by
  unfold reachedOf
  rw [List.find?_eq_none]
  intro e he
  by_cases hi : e.index = i
  · simp [h e he hi]
  · simp [hi]

theorem fireReached_quiet {s : State} {x : Sec} {i : Fin 64} (h : s.Quiet x i (s.sec x).schedule) (n : Nat) :
    s.fireReached x i n = s := by
  cases n with
  | zero => rfl
  | succ n => rw [fireReached, reachedOf_none h]

/-- Entries put in their places in a section's schedule. -/
def inserted (x : Sec) (es : List Entry) (s : State) : State := s.setSec x { s.sec x with
  schedule := es.foldl (fun l e => insertEntry (s.sec x).counter e l) (s.sec x).schedule }

theorem insertEntries_quiet {s : State} {x : Sec} {i : Fin 64} {es : List Entry}
    (new : ∀ e ∈ es, s.isReached x e.due = false) (old : ∀ e ∈ (s.sec x).schedule, e.index ≠ i) :
    s.insertEntries x i es = s.inserted x es := by
  have hquiet : (s.inserted x es).Quiet x i ((s.inserted x es).sec x).schedule := by
    intro e he hi
    rw [inserted, sec_setSec] at he
    have hreached : (s.inserted x es).isReached x e.due = s.isReached x e.due := by
      rw [isReached, inserted, sec_setSec]
      rfl
    rw [hreached]
    rcases List.mem_append.mp ((inserted_perm _ es _).mem_iff.mp he) with hnew | hold
    · exact new e hnew
    · exact absurd hi (old e hold)
  exact fireReached_quiet hquiet 4

/-- The first of the entries is reached and fires, and the others are not. -/
theorem insertEntries_first {s : State} {x : Sec} {i : Fin 64} {first : Entry} {rest : List Entry}
    (index : first.index = i) (now : s.isReached x first.due = true) (new : ∀ e ∈ rest, s.isReached x e.due = false)
    (old : ∀ e ∈ (s.sec x).schedule, e.index ≠ i)
    (keeps : ((s.inserted x (first :: rest)).fireEntry x first).sec x = ((s.inserted x (first :: rest)).fired x first).sec x) :
    s.insertEntries x i (first :: rest) = (s.inserted x (first :: rest)).fireEntry x first := by
  have hsec : (s.inserted x (first :: rest)).sec x = { s.sec x with
      schedule := (first :: rest).foldl (fun l e => insertEntry (s.sec x).counter e l) (s.sec x).schedule } := sec_setSec ..
  have hperm := inserted_perm (s.sec x).counter (first :: rest) (s.sec x).schedule
  have hreached : ∀ p, (s.inserted x (first :: rest)).isReached x p = s.isReached x p := fun p => by
    rw [isReached, hsec]
    rfl
  have hfirst : (s.inserted x (first :: rest)).reachedOf x i = some first := by
    unfold reachedOf
    rw [hsec]
    cases hfind : List.find? (fun e => decide (e.index = i) && (s.inserted x (first :: rest)).isReached x e.due)
        ((first :: rest).foldl (fun l e => insertEntry (s.sec x).counter e l) (s.sec x).schedule) with
    | none =>
      have hnone := List.find?_eq_none.mp hfind first (hperm.mem_iff.mpr (by simp))
      simp [index, hreached, now] at hnone
    | some e =>
      have hmem := hperm.mem_iff.mp (List.mem_of_find?_eq_some hfind)
      have htest := List.find?_some hfind
      rw [hreached, Bool.and_eq_true, decide_eq_true_iff] at htest
      obtain ⟨hi, hnow⟩ := htest
      rcases List.mem_append.mp hmem with hnew | hold
      · rcases List.mem_cons.mp hnew with rfl | hrest
        · rfl
        · rw [new e hrest] at hnow
          exact absurd hnow (by decide)
      · exact absurd hi (old e hold)
  have hquiet : ((s.inserted x (first :: rest)).fireEntry x first).Quiet x i
      (((s.inserted x (first :: rest)).fireEntry x first).sec x).schedule := by
    have hlater : ∀ p, ((s.inserted x (first :: rest)).fireEntry x first).isReached x p = s.isReached x p := fun p => by
      rw [isReached, keeps, fired, sec_setSec, hsec]
      rfl
    intro e he hi
    rw [keeps, fired, sec_setSec, hsec] at he
    have hmem := (hperm.erase first).mem_iff.mp he
    rw [List.cons_append, List.erase_cons_head] at hmem
    rw [hlater]
    rcases List.mem_append.mp hmem with hrest | hold
    · exact new e hrest
    · exact absurd hi (old e hold)
  have hfire : s.insertEntries x i (first :: rest) = fireReached x i 4 (s.inserted x (first :: rest)) := rfl
  rw [hfire, fireReached, hfirst]
  exact fireReached_quiet hquiet 3

/-! ### A target request keeps what the schedules need -/

theorem targetRequest_keeps (source : Source) (tag : Nat) (p : Fin 6) (c : Combo) (s : State) :
    (s.targetRequest source tag p c).pool = s.pool ∧ (s.targetRequest source tag p c).secs = s.secs := by
  unfold targetRequest
  split
  · exact ⟨rfl, rfl⟩
  · split
    · rw [offer_eq]
      exact ⟨rfl, rfl⟩
    · exact ⟨rfl, rfl⟩

/-- A pair-target entry that fires while a strip is followed is a target request alone. -/
theorem fireEntry_target_of_occupied {s : State} {x : Sec} {e : Entry} {p : Fin 6} {c : Combo} (occupied : s.liveList ≠ [])
    (action : e.action = .pairTarget p c) :
    s.fireEntry x e = (s.fired x e).targetRequest (.unit x) (s.record e.index).tag p c := by
  have hlist : ((s.fired x e).targetRequest (.unit x) (s.record e.index).tag p c).liveList = s.liveList :=
    congrArg (fun q : Pool => liveList { s with pool := q }) (targetRequest_keeps ..).1
  rw [fireEntry_target s action, drainTest_of_occupied (by rw [hlist]; exact occupied)]

end State

end Sys2Proof.Machine
end

section
/-! The end-match decision at the handoff to S3 (R111 to R114). -/

namespace Sys2Proof.Machine

open Sys2Proof.Config

namespace State

/-! ### Heads in use, their entries and conflicts (R104, R112, R113) -/

theorem headInUse_eq (head : Option (Fin 6)) (s : State) :
    s.headInUse head = head.filter (fun p => (s.pair p).isSome) := by
  cases head <;> rfl

theorem headConflict_eq (last : Option Pos) (advance : Pos) (s : State) : s.headConflict last advance
    = last.any (fun q => decide (8388608 ≤ (advance - q).toNat
      ∨ (advance - q).toNat < (s.sec .s3).cfg.toCounts s.cuts.clearance)) := by
  cases last with
  | none => rfl
  | some r => simp [headConflict, Option.any]

theorem matchConflict_iff (i : Fin 64) (s : State) : s.matchConflict i = true ↔
    ((s.headInUse s.cuts.tonguePair).isSome = true ∧ s.headConflict s.cuts.lastTongue (s.tonguePos i).1 = true)
    ∨ ((s.headInUse s.cuts.groovePair).isSome = true ∧ s.headConflict s.cuts.lastGroove (s.groovePos i).1 = true) := by
  simp [matchConflict]

theorem headEntries_index {i : Fin 64} {p : Fin 6} {at' : Pos × Pos} {e : Entry} (h : e ∈ headEntries i p at') :
    e.index = i := by
  simp only [headEntries, List.mem_cons, List.not_mem_nil, or_false] at h
  rcases h with rfl | rfl <;> rfl

theorem matchEntries_index {s : State} {i : Fin 64} : ∀ e ∈ s.matchEntries i, e.index = i := by
  intro e he
  rcases List.mem_append.mp he with h | h
  · cases hhead : s.headInUse s.cuts.tonguePair with
    | none => simp [hhead] at h
    | some p =>
      rw [hhead] at h
      exact headEntries_index h
  · cases hhead : s.headInUse s.cuts.groovePair with
    | none => simp [hhead] at h
    | some p =>
      rw [hhead] at h
      exact headEntries_index h

/-! ### The branches of the decision (R111, R114) -/

section
variable {s : State} {i : Fin 64}

theorem endMatch_other (h : ∀ p, (s.record i).disp ≠ .pocket p) : s.endMatch i = s := by
  unfold endMatch
  split
  · rename_i p hdisp
    exact absurd hdisp (h p)
  · rfl

theorem endMatch_idle (h : s.matchEntries i = []) : s.endMatch i = s := by
  unfold endMatch
  split
  · rw [h]
  · rfl

variable {p : Fin 12} (pocket : (s.record i).disp = .pocket p) (some' : s.matchEntries i ≠ [])

include pocket some'

theorem endMatch_pocket : s.endMatch i = if s.matchConflict i then s.skipEndMatch i
    else if s.scheduleRoom .s3 (s.matchEntries i).length then (s.setLastRetracts i).insertEntries .s3 i (s.matchEntries i)
    else s.skipEndMatch i := by
  unfold endMatch
  rw [pocket]
  dsimp only
  cases h : s.matchEntries i with
  | nil => exact absurd h some'
  | cons e es => rfl

end

/-- The line counters with the skipped end matches counted, unless this strip is counted already. -/
def countedSkipped (r : Record) (s : State) : State := { s with run := { s.run with counters := { s.run.counters with
  endSkipped := if r.faults.endMatchSkipped then s.run.counters.endSkipped else s.run.counters.endSkipped + 1 } } }

theorem skipEndMatch_eq {s : State} {i : Fin 64} (live : s.live i = true) : s.skipEndMatch i
    = (s.countedSkipped (s.record i)).fallen (s.record i).disp.falls i
        { s.record i with faults := { (s.record i).faults with endMatchSkipped := true } }
        (.bin s.run.settings.regrade .endMatchSkipped) := by
  have hcounted : (if (s.record i).faults.endMatchSkipped then s
      else s.modCounters (fun c => { c with endSkipped := c.endSkipped + 1 })) = s.countedSkipped (s.record i) := by
    unfold countedSkipped
    cases (s.record i).faults.endMatchSkipped <;> rfl
  unfold skipEndMatch
  dsimp only
  rw [hcounted, write_fallen (by exact live) (by rfl) rfl]
  rfl

end State

/-- Settles O20: a conflict or a full schedule skips the end match, and otherwise its entries are inserted. -/
theorem endMatching : Obligations.EndMatching := by
  intro s i lists live r c S at' inUse entries tongue groove conflict conflicts full inserted scheduled
  have hoccupied : s.liveList ≠ [] := State.occupied_of_live lists live
  have hentries : s.matchEntries i = tongue ++ groove := by
    unfold State.matchEntries
    rw [State.headInUse_eq, State.headInUse_eq]
    rfl
  have hconflict : s.matchConflict i = true ↔ conflicts := by
    rw [State.matchConflict_iff, State.headConflict_eq, State.headConflict_eq, State.headInUse_eq, State.headInUse_eq]
    rfl
  have hsched : (s.setLastRetracts i).inserted .s3 (tongue ++ groove) = scheduled inserted := by
    unfold State.setLastRetracts
    simp only [State.headInUse_eq]
    rfl
  have hplaced : ∀ {p}, r.disp = .pocket p → tongue ++ groove ≠ [] → ¬ conflicts → ¬ full →
      s.endMatch i = (s.setLastRetracts i).insertEntries .s3 i (tongue ++ groove) := by
    intro p pocket some' smooth room
    have hroom : s.scheduleRoom .s3 (tongue ++ groove).length = true := decide_eq_true (Nat.not_lt.mp room)
    refine (State.endMatch_pocket pocket (by rw [hentries]; exact some')).trans ?_
    rw [if_neg fun h => smooth (hconflict.mp h), hentries, if_pos hroom]
  refine ⟨?none, fun p pocket some' => ⟨fun skips => ?skipped, fun smooth room old => ⟨fun quiet => ?quiet,
    fun first rest k hlist action now later => ?first⟩⟩, fun e k want index action => ?fires⟩
  case none =>
    rintro (other | idle)
    · exact State.endMatch_other other
    · exact State.endMatch_idle (hentries.trans idle)
  case skipped =>
    intro t
    have ht : t = s.skipEndMatch i := by
      refine (State.endMatch_pocket pocket (by rw [hentries]; exact some')).trans ?_
      by_cases hc : s.matchConflict i = true
      · rw [if_pos hc]
      · have hfull : full := skips.resolve_left fun h => hc (hconflict.mpr h)
        have hroom : s.scheduleRoom .s3 (s.matchEntries i).length = false := by
          rw [hentries]
          exact decide_eq_false (Nat.not_le.mpr hfull)
        rw [if_neg hc, hroom]
        rfl
    rw [State.skipEndMatch_eq live] at ht
    have hfalls : (s.record i).disp.falls = true := by
      rw [pocket]
      rfl
    rw [hfalls] at ht
    obtain ⟨hrun, hsecs, hcuts, hout, -⟩ := State.fallen_keeps true i { r with faults := { r.faults with endMatchSkipped := true } }
      (.bin s.run.settings.regrade .endMatchSkipped) (s.countedSkipped r)
    refine ⟨?record, fun j hj => ?other, ?secs, ?cuts, ?out, ?run, fun unplaced => ?unplaced, fun pl placed => ?placed⟩
    case record =>
      rw [ht]
      exact State.fallen_record true i _ _ _
    case other =>
      rw [ht]
      exact State.fallen_record_of_ne true i _ _ _ hj
    case secs =>
      rw [ht]
      exact hsecs
    case cuts =>
      rw [ht]
      exact hcuts
    case out =>
      rw [ht]
      exact hout
    case run =>
      rw [ht]
      exact hrun
    case unplaced =>
      rw [ht]
      exact State.fallen_of_unplaced true i _ _ _ (.inr unplaced)
    case placed =>
      intro u
      rw [ht]
      have h := State.fallen_of_placed true i { r with faults := { r.faults with endMatchSkipped := true } }
        (.bin s.run.settings.regrade .endMatchSkipped) (s.countedSkipped r) rfl placed
      obtain ⟨hpockets, hlabels⟩ := State.handedBack_blocks (s := s) (t := s.countedSkipped r) rfl rfl rfl rfl pl
      exact ⟨h.1.trans hpockets, h.2.trans hlabels⟩
  case quiet =>
    rw [hplaced pocket some' smooth room, State.insertEntries_quiet (by exact quiet) (by exact old), hsched]
  case first =>
    have hindex : first.index = i := by
      refine State.matchEntries_index (s := s) first ?_
      rw [hentries, hlist]
      exact List.mem_cons_self
    rw [hlist] at hsched
    have hfire : ((s.setLastRetracts i).inserted .s3 (first :: rest)).fireEntry .s3 first
        = (scheduled (inserted.erase first)).targetRequest (.unit .s3) r.tag k ⟨true, false⟩ := by
      rw [State.fireEntry_target_of_occupied (by exact hoccupied) action, hsched, hindex]
      have hfired : (scheduled inserted).fired .s3 first = scheduled (inserted.erase first) := by
        have hsec : (scheduled inserted).sec .s3 = { S with schedule := inserted } := State.sec_setSec ..
        rw [State.fired, hsec]
        exact congrArg (fun u : State => { u with cuts := (scheduled inserted).cuts }) (State.setSec_setSec ..)
      rw [hfired]
      rfl
    rw [hplaced pocket some' smooth room, hlist, State.insertEntries_first hindex (by exact now) (by exact later)
      (by exact old), hfire]
    rw [State.fireEntry_target_of_occupied (by exact hoccupied) action]
    exact congrArg (fun v : Vector SectionUnit 4 => v[Sec.s3.idx]) (State.targetRequest_keeps ..).2
  case fires =>
    have h := State.fireEntry_target_of_occupied (x := .s3) hoccupied action
    rw [index] at h
    exact h

end Sys2Proof.Machine
end

section
/-! The commit event on S2 (R39, R41, R63, R78, R105, R106). -/

namespace Sys2Proof.Machine

open Sys2Proof.Config

namespace State

/-! ### Records written again, and a fault of an unplaced strip -/

theorem setRecord_twice (i : Fin 64) (q r : Record) (s : State) : (s.setRecord i q).setRecord i r = s.setRecord i r := by
  simp [setRecord]

theorem writeRecord_live_eq {s : State} {i : Fin 64} (live : s.live i = true) (f : Record → Record) :
    s.writeRecord i f = s.setRecord i (f (s.record i)) := if_pos live

theorem fallen_unplaced {i : Fin 64} {r : Record} (unplaced : r.placement = none) (d : Disposition) (s : State) :
    s.fallen true i r d = s.setRecord i { r with disp := d } := by
  have hback : s.handedBack r = s := by rw [handedBack, unplaced]
  have hsame : ({ r with disp := d, placement := none } : Record) = { r with disp := d } := by rw [← unplaced]
  rw [fallen, if_pos rfl, hback, hsame]

/-! ### The parts of the commit event -/

section
variable {s : State} {i : Fin 64}

theorem commitSolver_finished (h : (s.record i).solve ≠ .queued ∧ (s.record i).solve ≠ .solving) : s.commitSolver i = s := by
  unfold commitSolver
  split
  · exact absurd ‹_› h.1
  · exact absurd ‹_› h.2
  · rfl

theorem commitSolver_queued (h : (s.record i).solve = .queued) : s.commitSolver i = s.markMissed i := by
  rw [commitSolver, h]

theorem commitScan_decided (h : (s.record i).solve ≠ .none ∨ (s.record i).disp ≠ .undecided) : s.commitScan i = s :=
  if_neg fun k => h.elim (fun hs => hs k.1) (fun hd => hd k.2)

theorem commitDecision_uncut (h : (s.record i).solve ≠ .solved) : s.commitDecision i = s := by
  unfold commitDecision decidedCut
  rw [decide_eq_false h]
  rfl

theorem decidedCut_pocket {p : Fin 12} (solved : (s.record i).solve = .solved) (pocket : (s.record i).disp = .pocket p) :
    s.decidedCut i = true := by
  unfold decidedCut
  rw [solved, pocket]
  rfl

theorem sawEntries_both {v : Solution} {l : Fin 24} (solution : (s.record i).solution = some v)
    (line : s.cuts.sawLine = some l) (first : v.t1 ≠ 0) (second : v.t2 ≠ 0) : s.sawEntries i
    = [s.sawEntry i l (s.cuts.sawPos + v.t1), s.sawEntry i l (s.cuts.sawPos + (s.record i).len - v.t2)] := by
  unfold sawEntries
  rw [solution, line]
  dsimp only
  rw [if_neg first, if_neg second]
  rfl

theorem commitDecision_cut {es : List Entry} (cut : s.decidedCut i = true) (entries : s.sawEntries i = es) (some' : es ≠ [])
    (room : es.length + (s.sec .s2).schedule.length ≤ 32) : s.commitDecision i
    = (s.modCuts (fun c => { c with cutSet := c.cutSet ++ [i] })).insertEntries .s2 i es := by
  unfold commitDecision
  rw [if_pos cut, entries]
  cases es with
  | nil => exact absurd rfl some'
  | cons e es => exact if_pos (decide_eq_true room)

/-- An undecided strip without a placement that its commit event finds QUEUED is MISSED. -/
theorem markMissed_eq (live : s.live i = true) (idle : s.inFlight i = false) (undecided : (s.record i).disp = .undecided)
    (unplaced : (s.record i).placement = none) : s.markMissed i
    = ({ s with
        solver := { s.solver with queue := s.solver.queue.filter (fun j => decide (j ≠ i)) }
        run := { s.run with counters := { s.run.counters with missed := s.run.counters.missed + 1 } } } : State).setRecord i
      { s.record i with
        solve := .missed
        disp := .bin s.run.settings.regrade .missed } := by
  unfold markMissed
  rw [solverForget_idle idle, writeRecord_live_eq (by exact live)]
  have hfallen := writeDisposition_fallen
    (s := ({ s with
      solver := { s.solver with queue := s.solver.queue.filter (fun j => decide (j ≠ i)) }
      run := { s.run with counters := { s.run.counters with missed := s.run.counters.missed + 1 } } } : State))
    (i := i) (r := { s.record i with solve := .missed }) (d := .bin s.run.settings.regrade .missed) live rfl rfl
  rw [show Disposition.falls _ = true by rw [undecided]; rfl, fallen_unplaced (by exact unplaced)] at hfallen
  exact hfallen

theorem markUnscanned_undecided (live : s.live i = true) (undecided : (s.record i).disp = .undecided)
    (unplaced : (s.record i).placement = none) : s.markUnscanned i
    = ({ s with run := { s.run with counters := { s.run.counters with
        unscanned := s.run.counters.unscanned + 1 } } } : State).setRecord i
      { s.record i with disp := .bin s.run.settings.regrade .unscanned } := by
  have hback : s.handedBack (s.record i) = s := by rw [handedBack, unplaced]
  rw [markUnscanned_eq live, unscannedAs, hback, undecided, ← unplaced]

end

end State

/-- Settles O18: each part of the event finds the record as the part before it left it. -/
theorem commitEvents : Obligations.CommitEvents := by
  intro s i live before r marked c
  have hmarked : s.writeRecord i (fun r => { r with committed := true }) = s.setRecord i marked :=
    State.writeRecord_live_eq live _
  have hlive : (s.setRecord i marked).live i = true := (State.setRecord_live (r := marked) rfl i).trans live
  have hrecord : (s.setRecord i marked).record i = marked := State.record_setRecord ..
  refine ⟨?cut, fun queued undecided idle => ?missed, fun unsolved undecided => ?unscanned⟩
  case cut =>
    intro v l p solved pocket solution line t1 t2 room old first second now firstAhead secondAhead
    have hsolved : ((s.setRecord i marked).record i).solve = .solved := by rw [hrecord]; exact solved
    have hpocket : ((s.setRecord i marked).record i).disp = .pocket p := by rw [hrecord]; exact pocket
    have hentries : (s.setRecord i marked).sawEntries i = [first, second] := by
      have hsolution : ((s.setRecord i marked).record i).solution = some v := by rw [hrecord]; exact solution
      rw [State.sawEntries_both hsolution line t1 t2, State.sawEntry, State.sawEntry, hrecord]
      rfl
    have hahead : ∀ e ∈ [first, second], s.isReached .s2 e.due = false := by
      intro e he
      simp only [List.mem_cons, List.not_mem_nil, or_false] at he
      rcases he with rfl | rfl
      · exact firstAhead
      · exact secondAhead
    rw [State.commitEvent, hmarked, State.commitSolver_finished (by rw [hsolved]; decide),
      State.commitScan_decided (.inl (by rw [hsolved]; decide)),
      State.commitDecision_cut (State.decidedCut_pocket hsolved hpocket) hentries (by simp)
        (by exact Nat.add_le_add_left room 2), State.insertEntries_quiet (by exact hahead) (by exact old)]
    rfl
  case missed =>
    have hunplaced : ((s.setRecord i marked).record i).placement = none := by
      rw [hrecord]
      exact before.resolve_right (by rw [show (s.record i).solve = .queued from queued]; decide)
    have hqueued : ((s.setRecord i marked).record i).solve = .queued := by rw [hrecord]; exact queued
    have hundecided : ((s.setRecord i marked).record i).disp = .undecided := by rw [hrecord]; exact undecided
    have hmissed := State.markMissed_eq hlive (by exact idle) hundecided hunplaced
    rw [hrecord] at hmissed
    rw [State.commitEvent, hmarked, State.commitSolver_queued hqueued, hmissed,
      State.commitScan_decided (.inl (by rw [State.record_setRecord]; exact (by decide : SolveStatus.missed ≠ .none))),
      State.commitDecision_uncut (by rw [State.record_setRecord]; exact (by decide : SolveStatus.missed ≠ .solved))]
    exact State.setRecord_twice i marked { marked with
        solve := .missed
        disp := .bin s.run.settings.regrade .missed }
      { s with
        solver := { s.solver with queue := s.solver.queue.filter (fun j => decide (j ≠ i)) }
        run := { s.run with counters := { s.run.counters with missed := s.run.counters.missed + 1 } } }
  case unscanned =>
    have hunplaced : ((s.setRecord i marked).record i).placement = none := by
      rw [hrecord]
      exact before.resolve_right (by rw [show (s.record i).solve = .none from unsolved]; decide)
    have hnone : ((s.setRecord i marked).record i).solve = .none := by rw [hrecord]; exact unsolved
    have hundecided : ((s.setRecord i marked).record i).disp = .undecided := by rw [hrecord]; exact undecided
    have hunscanned := State.markUnscanned_undecided hlive hundecided hunplaced
    rw [hrecord] at hunscanned
    have hscan : (s.setRecord i marked).commitScan i = (s.setRecord i marked).markUnscanned i :=
      if_pos ⟨hnone, hundecided⟩
    rw [State.commitEvent, hmarked, State.commitSolver_finished (by rw [hnone]; decide), hscan, hunscanned,
      State.commitDecision_uncut (by
        rw [State.record_setRecord]
        exact fun h => absurd (unsolved.symm.trans h) (by decide))]
    exact State.setRecord_twice i marked { marked with disp := .bin s.run.settings.regrade .unscanned }
      { s with run := { s.run with counters := { s.run.counters with
        unscanned := s.run.counters.unscanned + 1 } } }

end Sys2Proof.Machine
end

section
/-! The walks of a grade's pockets and the reservation in a row (R134 to R137). -/

namespace Sys2Proof.Machine

open Sys2Proof.Config

/-- A bundle with a reservation more in a row. -/
def Bundle.reserving (b : Bundle) (row : Fin 12) (amount : Nat) : Bundle := { b with
  reserved := b.reserved.set row (b.reserved[row] + amount)
  reservations := b.reservations + 1 }

/-- A record with its place. -/
def Record.placedAt (r : Record) (p row : Fin 12) (amount : Nat) : Record := { r with
  placement := some ⟨p, row, amount⟩
  disp := .pocket p }

namespace State

/-! ### Walks (R134) -/

theorem member_iff (k : Pocket) (g : Fin 8) : k.member g = true ↔ k.cfg.isBin = false ∧ k.cfg.grade = g := by
  simp [Pocket.member]

theorem accepting_iff (k : Pocket) : k.accepting = true ↔ k.state ∈ [.empty, .filling] := by
  simp [Pocket.accepting]

theorem place_iff (k : Pocket) (len : Nat) (row : Fin 12) : k.place len = some row
    ↔ k.state ∈ [.empty, .filling] ∧ k.fit (len + k.cfg.joint) = some row := by
  rw [Pocket.place, Option.ite_none_right_eq_some, accepting_iff]

section
variable {β : Type} {s : State} {g : Fin 8} {test : Pocket → Option β} {n : Nat} {visited : List (Fin 12)} {p : Fin 12}

theorem walk_stops (h : p ∈ visited ∨ (s.pocket p).member g = false) : s.walk g test n visited (some p) = none := by
  cases n with
  | zero => rfl
  | succ n => rw [walk, if_pos h]

variable (new : p ∉ visited) (member : (s.pocket p).member g = true)

include new member

theorem walk_takes {x : β} (takes : test (s.pocket p) = some x) : s.walk g test (n + 1) visited (some p) = some (p, x) := by
  rw [walk, if_neg (by simp [new, member]), takes]

theorem walk_passes (passes : test (s.pocket p) = none) : s.walk g test (n + 1) visited (some p)
    = s.walk g test n (p :: visited) (s.pocket p).cfg.alternate := by
  rw [walk, if_neg (by simp [new, member]), passes]

end

/-- A walk ends at a pocket that its test takes. -/
theorem test_of_walk {β : Type} {s : State} {g : Fin 8} {test : Pocket → Option β} {p : Fin 12} {x : β} : ∀ n visited start,
    s.walk g test n visited start = some (p, x) → test (s.pocket p) = some x := by
  intro n
  induction n with
  | zero => exact fun visited start h => absurd h (by simp [walk])
  | succ n ih =>
    intro visited start h
    cases start with
    | none => exact absurd h (by simp [walk])
    | some q =>
      by_cases hstop : q ∈ visited ∨ (s.pocket q).member g = false
      · rw [walk_stops hstop] at h
        exact absurd h (by simp)
      · have hnew : q ∉ visited := fun k => hstop (.inl k)
        have hmember : (s.pocket q).member g = true := by
          rw [← Bool.not_eq_false]
          exact fun k => hstop (.inr k)
        cases htest : test (s.pocket q) with
        | none =>
          rw [walk_passes hnew hmember htest] at h
          exact ih _ _ h
        | some y =>
          rw [walk_takes hnew hmember htest] at h
          cases h
          exact htest

theorem primary_iff (s : State) (g : Fin 8) (p : Fin 12) : s.primary g = some p ↔
    ((s.pocket p).cfg.isBin = false ∧ (s.pocket p).cfg.grade = g) ∧ (s.pocket p).state ≠ .offline
    ∧ ∀ j, j < p → ¬ (((s.pocket j).cfg.isBin = false ∧ (s.pocket j).cfg.grade = g) ∧ (s.pocket j).state ≠ .offline) := by
  unfold primary
  rw [← Fin.find?_eq_find?_finRange, Fin.find?_eq_some_iff]
  simp only [Bool.and_eq_true, member_iff, decide_eq_true_eq, Bool.eq_false_iff, ne_eq, and_assoc]

/-! ### A pocket opens (R135) -/

section
variable {s : State} {i : Fin 64} {p row : Fin 12} {len : Nat}

theorem openBundle_of_ne (h : (s.pocket p).state ≠ .empty) : s.openBundle p = s := if_neg h

theorem openBundle_empty (h : (s.pocket p).state = .empty) : s.openBundle p
    = (s.modPocket p (fun k => { k with
        state := .filling
        bundle := some { grade := (s.pocket p).cfg.grade } })).offer
      ({ s.pocket p with bundle := some { grade := (s.pocket p).cfg.grade } }.report p .empty .filling .opened 0) := by
  have hmod : s.modPocket p (fun k => { k with
        bundle := some { grade := k.cfg.grade }
        state := .filling }) = s.modPocket p (fun k => { k with
        state := .filling
        bundle := some { grade := (s.pocket p).cfg.grade } }) := modPocket_congr rfl
  rw [openBundle, if_pos h, movePocket_modPocket, hmod, h]
  rfl

theorem reserve_empty (h : (s.pocket p).state = .empty) : s.reserve i p row len = (s.openBundle p).reserve i p row len := by
  have hopened : (s.openBundle p).pocket p = { s.pocket p with
      state := .filling
      bundle := some { grade := (s.pocket p).cfg.grade } } := by
    rw [openBundle_empty h, offer_pocket, pocket_modPocket]
  have hagain : (s.openBundle p).openBundle p = s.openBundle p := openBundle_of_ne (by rw [hopened]; exact nofun)
  unfold reserve
  rw [hagain, hopened]

/-! ### A reservation in a FILLING pocket (R136, R137) -/

theorem reserve_filling {b : Bundle} (live : s.live i = true) (filling : (s.pocket p).state = .filling)
    (bundle : (s.pocket p).bundle = some b) : s.reserve i p row len
    = ((s.modPocket p (fun x => { x with
        bundle := some (b.reserving row (len + (s.pocket p).cfg.joint)) })).setRecord i
      ((s.record i).placedAt p row (len + (s.pocket p).cfg.joint))).fullTest p := by
  have hreserved : s.modBundle p (fun b => b.reserving row (len + (s.pocket p).cfg.joint))
      = s.modPocket p (fun x => { x with bundle := some (b.reserving row (len + (s.pocket p).cfg.joint)) }) :=
    modPocket_congr (by simp [bundle])
  unfold reserve
  dsimp only
  rw [openBundle_of_ne (by rw [filling]; exact nofun)]
  refine (congrArg (fun u : State => (u.writeRecord i
    (fun r => r.placedAt p row (len + (s.pocket p).cfg.joint))).fullTest p) hreserved).trans ?_
  exact congrArg (State.fullTest p) (writeRecord_live_eq (by exact live) _)

theorem rowsFull_iff {k : Pocket} {b : Bundle} (bundle : k.bundle = some b) : k.rowsFull = true
    ↔ ∀ j : Fin 12, j.val < k.cfg.rows → k.cfg.rowLen - b.committed[j] - b.reserved[j] < k.cfg.closeGap := by
  unfold Pocket.rowsFull Pocket.rows Pocket.gap
  simp only [bundle, List.all_eq_true, List.mem_filter, List.mem_finRange, true_and, decide_eq_true_eq]

end

/-! ### The full test (R137) -/

section
variable {s : State} {p : Fin 12} {b : Bundle} (filling : (s.pocket p).state = .filling)
  (bundle : (s.pocket p).bundle = some b)

include filling bundle

theorem fullTest_filling : s.fullTest p = if (s.pocket p).rowsFull then s.closeBundle p .full
    else if (s.pocket p).piecesFull b then s.closeBundle p .maxPieces else s := by
  unfold fullTest
  rw [filling, bundle]

end

end State

/-- Settles O23: the walks at their first two pockets, and the full test after a reservation. -/
theorem reservation : Obligations.Reservation := by
  refine ⟨?walks, ?reserves⟩
  case walks =>
    intro s g len member takes
    have hmember : ∀ q, (s.pocket q).member g = true ↔ member q := fun q => State.member_iff _ g
    have htakes : ∀ q row, (s.pocket q).place len = some row ↔ takes q row := fun q row => State.place_iff _ len row
    have hpasses : ∀ q, (∀ k, ¬ takes q k) → (s.pocket q).place len = none := by
      intro q h
      cases hplace : (s.pocket q).place len with
      | none => rfl
      | some row => exact absurd ((htakes q row).mp hplace) (h row)
    have hprimary : ∀ q, s.primary g = some q → (s.pocket q).member g = true := fun q h =>
      (hmember q).mpr ((State.primary_iff s g q).mp h).1
    refine ⟨fun p => State.primary_iff s g p, ?nobody, ?first, ?second, ?ends, ?sortFirst, ?sortEnds, ?sortStops⟩
    case nobody =>
      intro h
      rw [State.placeAtCompletion, h]
      rfl
    case first =>
      intro p row h hp
      rw [State.placeAtCompletion, h]
      exact State.walk_takes (by simp) (hprimary p h) ((htakes p row).mpr hp)
    case second =>
      intro p q row h full alternate apart hq hrow
      rw [State.placeAtCompletion, h]
      refine (State.walk_passes (n := 11) (by simp) (hprimary p h) (hpasses p full)).trans ?_
      rw [alternate]
      exact State.walk_takes (by simpa using apart) ((hmember q).mpr hq) ((htakes q row).mpr hrow)
    case ends =>
      intro p h full alternate
      rw [State.placeAtCompletion, h]
      refine (State.walk_passes (n := 11) (by simp) (hprimary p h) (hpasses p full)).trans ?_
      rw [alternate]
      rfl
    case sortFirst =>
      intro p q row alternate apart hq hrow
      rw [State.placeAtSort, alternate]
      exact State.walk_takes (by simpa using apart) ((hmember q).mpr hq) ((htakes q row).mpr hrow)
    case sortEnds =>
      intro p alternate
      rw [State.placeAtSort, alternate]
      rfl
    case sortStops =>
      intro p q alternate h
      rw [State.placeAtSort, alternate]
      refine State.walk_stops (h.imp (fun hq => by simp [hq]) fun hq => ?_)
      rw [← Bool.not_eq_true, hmember]
      exact hq
  case reserves =>
    intro s i p row len live k amount
    refine ⟨fun empty => ?empty, fun b filling bundle => ?filling⟩
    case empty =>
      intro fresh
      rw [State.reserve_empty empty, State.openBundle_empty empty]
    case filling =>
      intro b' placed rowsFull piecesFull closes
      have hreserve := State.reserve_filling (row := row) (len := len) live filling bundle
      have hpocket : (placed (s.modPocket p (fun x => { x with bundle := some b' }))).pocket p
          = { k with bundle := some b' } :=
        State.pocket_modPocket p (fun x => { x with bundle := some b' }) s
      have hfilling : ((placed (s.modPocket p (fun x => { x with bundle := some b' }))).pocket p).state = .filling := by
        rw [hpocket]
        exact filling
      have hbundle : ((placed (s.modPocket p (fun x => { x with bundle := some b' }))).pocket p).bundle = some b' := by
        rw [hpocket]
      have hrows : ((placed (s.modPocket p (fun x => { x with bundle := some b' }))).pocket p).rowsFull = true
          ↔ rowsFull := by
        rw [State.rowsFull_iff hbundle, hpocket]
      have hpieces : ((placed (s.modPocket p (fun x => { x with bundle := some b' }))).pocket p).piecesFull b' = true
          ↔ piecesFull := by
        rw [hpocket]
        exact decide_eq_true_iff
      have hcloses : ∀ why, (placed (s.modPocket p (fun x => { x with bundle := some b' }))).closeBundle p why
          = closes why := by
        intro why
        rw [State.closeBundle_reserved hbundle (Nat.succ_ne_zero _), hfilling, hpocket]
        have hmod : (s.modPocket p (fun x => { x with bundle := some b' })).modPocket p (fun x => { x with
              state := .closing
              bundle := some { b' with closeReason := why } }) = s.modPocket p (fun x => { x with
              state := .closing
              bundle := some { b' with closeReason := why } }) := State.modPocket_modPocket ..
        exact congrArg (fun u : State => (u.setRecord i ((s.record i).placedAt p row amount)).offer
          ({ k with bundle := some { b' with closeReason := why } }.report p .filling .closing .closing 0)) hmod
      rw [hreserve]
      refine ⟨fun noRows noPieces => ?_, fun rows => ?_, fun noRows pieces => ?_⟩
      · refine (State.fullTest_filling hfilling hbundle).trans ?_
        rw [if_neg (hrows.not.mpr noRows), if_neg (hpieces.not.mpr noPieces)]
      · refine (State.fullTest_filling hfilling hbundle).trans ?_
        rw [if_pos (hrows.mpr rows), hcloses]
      · refine (State.fullTest_filling hfilling hbundle).trans ?_
        rw [if_neg (hrows.not.mpr noRows), if_pos (hpieces.mpr pieces), hcloses]

end Sys2Proof.Machine
end

section
/-! The sort commit event on S4 (R42, R139 to R141). -/

namespace Sys2Proof.Machine

open Sys2Proof.Config

namespace State

/-! ### A kick scheduled (R141) -/

/-- The kick entry of a record for a pocket on a kicker line. -/
def kickEntry (s : State) (i : Fin 64) (p : Fin 12) (l : Fin 24) (bin : Option (Fin 12)) : Entry :=
  ⟨addCounts (s.record i).lead ((s.sec .s4).cfg.toCounts ((s.pocket p).cfg.position + (s.pocket p).cfg.offset)),
    .linePulse l, i, bin⟩

theorem scheduleKick_quiet {s : State} {i : Fin 64} {p : Fin 12} {l : Fin 24} {bin : Option (Fin 12)}
    (kicker : (s.pocket p).cfg.kicker = some l) (room : (s.sec .s4).schedule.length ≤ 31)
    (old : ∀ e ∈ (s.sec .s4).schedule, e.index ≠ i) (ahead : s.isReached .s4 (s.kickEntry i p l bin).due = false) :
    s.scheduleKick i p bin = s.inserted .s4 [s.kickEntry i p l bin] := by
  have hroom : s.scheduleRoom .s4 1 = true := decide_eq_true (Nat.add_le_add_left room 1)
  unfold scheduleKick
  rw [kicker]
  dsimp only
  rw [if_pos hroom]
  refine insertEntries_quiet (fun e he => ?_) old
  rw [List.mem_singleton.mp he]
  exact ahead

/-- A disposition of an unplaced strip not for the run-off. -/
theorem writeDisposition_unplaced {s : State} {i : Fin 64} {d : Disposition} (live : s.live i = true)
    (falls : (s.record i).disp.falls = true) (unplaced : (s.record i).placement = none) (out : d.isBinOrRunoff = true) :
    s.writeDisposition i d = s.setRecord i { s.record i with disp := d } := by
  have hself : s.setRecord i (s.record i) = s := by simp [setRecord, record]
  have h := writeDisposition_fallen (d := d) (r := s.record i) live rfl out
  rwa [hself, falls, fallen_unplaced unplaced] at h

/-! ### The branches of the sort commit (R139, R140) -/

section
variable {s : State} {i : Fin 64} (live : s.live i = true)

include live

theorem sortCommit_pocket {p : Fin 12} {pl : Placement} (disp : (s.record i).disp = .pocket p)
    (placement : (s.record i).placement = some pl) :
    s.sortCommit i = (s.setRecord i { s.record i with sortCommitted := true }).sortPocket i pl := by
  unfold sortCommit
  dsimp only
  rw [writeRecord_live_eq live, record_setRecord, disp, placement]

theorem sortCommit_bin {p : Option (Fin 12)} {why : Reason} (disp : (s.record i).disp = .bin p why) :
    s.sortCommit i = (s.setRecord i { s.record i with sortCommitted := true }).sortBin i := by
  unfold sortCommit
  dsimp only
  rw [writeRecord_live_eq live, record_setRecord, disp]

theorem sortCommit_other (h : (s.record i).disp = .undecided ∨ ∃ why, (s.record i).disp = .runoff why) :
    s.sortCommit i = s.setRecord i { s.record i with sortCommitted := true } := by
  unfold sortCommit
  dsimp only
  rw [writeRecord_live_eq live, record_setRecord]
  obtain h | ⟨why, h⟩ := h <;> rw [h]

end

section
variable {s : State} {i : Fin 64}

theorem sortPocket_takes {pl : Placement} (h : (s.pocket pl.pocket).state ∈ [PocketState.filling, .closing]) :
    s.sortPocket i pl = s.scheduleKick i pl.pocket none := by
  simp only [List.mem_cons, List.not_mem_nil, or_false] at h
  unfold sortPocket
  rcases h with h | h <;> rw [h]

theorem sortPocket_replaces {pl : Placement} (h : (s.pocket pl.pocket).state ∉ [PocketState.filling, .closing]) :
    s.sortPocket i pl = s.replacePlacement i pl := by
  simp only [List.mem_cons, List.not_mem_nil, or_false, not_or] at h
  unfold sortPocket
  split
  · exact absurd ‹_› h.1
  · exact absurd ‹_› h.2
  · rfl

variable {p : Fin 12} {why : Reason} (disp : (s.record i).disp = .bin (some p) why)

include disp

theorem sortBin_takes (accepting : s.binAccepting p = true) : s.sortBin i = s.scheduleKick i p (some p) := by
  unfold sortBin
  rw [disp]
  exact if_pos accepting

theorem sortBin_refuses (refusing : s.binAccepting p = false) :
    s.sortBin i = s.writeDisposition i (.runoff .overflowFull) := by
  unfold sortBin
  rw [disp]
  exact if_neg (by rw [refusing]; decide)

end

theorem binAccepting_iff (s : State) (p : Fin 12) : s.binAccepting p = true ↔ (s.pocket p).cfg.isBin = true
    ∧ (s.pocket p).state ∈ [.empty, .filling] ∧ (s.pocket p).count + s.pendingKicks p < (s.pocket p).cfg.capacity := by
  unfold binAccepting
  rw [Bool.and_eq_true, Bool.and_eq_true, accepting_iff, decide_eq_true_iff, and_assoc]

end State

/-- Settles O21: the mark, and then the kick or the disposition of the branch. -/
theorem sortCommits : Obligations.SortCommits := by
  intro s i live r marked kicked scheduled
  have hrecord : (s.setRecord i marked).record i = marked := State.record_setRecord ..
  have hlive : (s.setRecord i marked).live i = true := (State.setRecord_live (r := marked) rfl i).trans live
  have hentry : ∀ p l bin, (s.setRecord i marked).kickEntry i p l bin = kicked p l bin := by
    intro p l bin
    rw [State.kickEntry, hrecord]
    rfl
  have haccepting : ∀ p, (s.setRecord i marked).binAccepting p = true ↔ (s.pocket p).cfg.isBin = true
      ∧ (s.pocket p).state ∈ [.empty, .filling] ∧ (s.pocket p).count + s.pendingKicks p < (s.pocket p).cfg.capacity :=
    State.binAccepting_iff (s.setRecord i marked)
  refine ⟨fun room old => ⟨fun p l pl disp placement takes kicker ahead => ?pocket,
    fun p l why disp isBin takes few kicker ahead => ?binned⟩, fun p why disp unplaced refuses => ?full, fun h => ?other⟩
  case pocket =>
    rw [State.sortCommit_pocket live disp placement, State.sortPocket_takes (by exact takes),
      State.scheduleKick_quiet (by exact kicker) (by exact room) (by exact old) (by rw [hentry]; exact ahead), hentry]
    rfl
  case binned =>
    have hdisp : ((s.setRecord i marked).record i).disp = .bin (some p) why := by rw [hrecord]; exact disp
    rw [State.sortCommit_bin live disp, State.sortBin_takes hdisp ((haccepting p).mpr ⟨isBin, takes, few⟩),
      State.scheduleKick_quiet (by exact kicker) (by exact room) (by exact old) (by rw [hentry]; exact ahead), hentry]
    rfl
  case full =>
    have hdisp : ((s.setRecord i marked).record i).disp = .bin (some p) why := by rw [hrecord]; exact disp
    have hrefusing : (s.setRecord i marked).binAccepting p = false := by
      rw [← Bool.not_eq_true, haccepting]
      rintro ⟨hbin, htakes, hfew⟩
      rcases refuses with h | h | h
      · rw [h] at hbin
        exact absurd hbin (by decide)
      · exact h htakes
      · exact absurd hfew (Nat.not_lt.mpr h)
    have hfalls : ((s.setRecord i marked).record i).disp.falls = true := by
      rw [hdisp]
      rfl
    have hunplaced : ((s.setRecord i marked).record i).placement = none := by rw [hrecord]; exact unplaced
    rw [State.sortCommit_bin live disp, State.sortBin_refuses hdisp hrefusing,
      State.writeDisposition_unplaced hlive hfalls hunplaced rfl, hrecord, State.setRecord_twice]
  case other => exact State.sortCommit_other live h

namespace State

/-! ### A reservation where a place was found (R135 to R137, R139) -/

theorem fullTest_state {s : State} {p : Fin 12} (filling : (s.pocket p).state = .filling)
    (reserved : ∀ b, (s.pocket p).bundle = some b → b.reservations ≠ 0) :
    ((s.fullTest p).pocket p).state ∈ [PocketState.filling, .closing] := by
  cases bundle : (s.pocket p).bundle with
  | none =>
    have hsame : s.fullTest p = s := by
      unfold fullTest
      rw [filling, bundle]
    simp [hsame, filling]
  | some b =>
    have hcloses : ∀ why, ((s.closeBundle p why).pocket p).state = .closing := by
      intro why
      rw [closeBundle_reserved bundle (reserved b bundle), offer_pocket, pocket_modPocket]
    rw [fullTest_filling filling bundle]
    split
    · simp [hcloses]
    · split
      · simp [hcloses]
      · simp [filling]

theorem openBundle_state {s : State} {p : Fin 12} (accepting : (s.pocket p).state ∈ [PocketState.empty, .filling]) :
    ((s.openBundle p).pocket p).state = .filling := by
  simp only [List.mem_cons, List.not_mem_nil, or_false] at accepting
  rcases accepting with h | h
  · rw [openBundle_empty h, offer_pocket, pocket_modPocket]
  · rw [openBundle_of_ne (by rw [h]; exact nofun), h]

section
variable {s : State} {i : Fin 64} {p : Fin 12} (row : Fin 12) (len : Nat) (live : s.live i = true)

theorem reserve_state (accepting : (s.pocket p).state ∈ [PocketState.empty, .filling]) :
    ((s.reserve i p row len).pocket p).state ∈ [PocketState.filling, .closing] := by
  have hpocket : ∀ u : State, ∀ f, (u.writeRecord i f).pocket p = u.pocket p := by
    intro u f
    unfold writeRecord
    split <;> rfl
  unfold reserve
  dsimp only
  refine fullTest_state ?_ ?_
  · rw [hpocket]
    exact (congrArg Pocket.state (pocket_modPocket ..)).trans (openBundle_state accepting)
  · intro b hb
    rw [hpocket, modBundle, pocket_modPocket, Option.map_eq_some_iff] at hb
    obtain ⟨b0, -, rfl⟩ := hb
    exact Nat.succ_ne_zero _

include live

theorem reserve_record : (s.reserve i p row len).record i
    = (s.record i).placedAt p row (len + (s.pocket p).cfg.joint) := by
  have hmoved := ((PocketsMoved.refl s).openBundle p).modBundle p (fun b => b.reserving row (len + (s.pocket p).cfg.joint))
  have hrecord : ∀ {u v : State}, u.PocketsMoved v → v.record i = u.record i := fun h =>
    congrArg (fun q : Pool => q.records[i]) h.pool
  have hlive : ((s.openBundle p).modBundle p (fun b => b.reserving row (len + (s.pocket p).cfg.joint))).live i = true :=
    (live_of_pool hmoved.pool i).trans live
  exact (hrecord ((PocketsMoved.refl _).fullTest p)).trans ((record_writeRecord i _ _ hlive).trans
    (congrArg (fun r : Record => r.placedAt p row (len + (s.pocket p).cfg.joint)) (hrecord hmoved)))

end

theorem withoutPlacement_pocket (pl : Placement) (q : Fin 12) (s : State) :
    ((s.withoutPlacement pl).pocket q).cfg = (s.pocket q).cfg ∧ ((s.withoutPlacement pl).pocket q).state = (s.pocket q).state := by
  unfold withoutPlacement
  by_cases h : q = pl.pocket
  · rw [h, pocket_modPocket]
    exact ⟨rfl, rfl⟩
  · rw [pocket_modPocket_of_ne _ _ _ _ h]
    exact ⟨rfl, rfl⟩

theorem replacePlacement_eq {s : State} {i : Fin 64} {pl : Placement} {g : Option (Fin 8)} (live : s.live i = true)
    (placement : (s.record i).placement = some pl) (grade : (s.record i).grade = g) {t : State}
    (dropped : (s.withoutPlacement pl).setRecord i { s.record i with placement := none } = t) :
    (∀ p row, (g.bind fun x => t.placeAtSort pl.pocket x (s.record i).pieceLen) = some (p, row) →
      s.replacePlacement i pl = (t.reserve i p row (s.record i).pieceLen).scheduleKick i p none)
    ∧ ((g.bind fun x => t.placeAtSort pl.pocket x (s.record i).pieceLen) = none →
      s.replacePlacement i pl = (t.writeDisposition i (s.overflowBin .noFit)).sortBin i) := by
  have hdrop : s.dropPlacement i = t := by
    rw [dropPlacement, placement, ← dropped]
    exact if_pos live
  unfold replacePlacement
  dsimp only
  rw [hdrop, grade]
  exact ⟨fun p row h => by rw [h], fun h => by rw [h]⟩

/-- A record marked already is committed again without a change. -/
theorem setRecord_marked {s : State} {i : Fin 64} (h : (s.record i).sortCommitted = true) :
    s.setRecord i { s.record i with sortCommitted := true } = s := by
  have hsame : ({ s.record i with sortCommitted := true } : Record) = s.record i := by rw [← h]
  rw [hsame]
  simp [setRecord, record]

end State

/-- Settles O22: the placement dropped, the walk from its pocket, and the sort commit of what it found. -/
theorem rePlacement : Obligations.RePlacement := by
  intro s i q pl live disp placement gone r moved found
  have hrecord : (s.setRecord i { r with sortCommitted := true }).record i = { r with sortCommitted := true } :=
    State.record_setRecord ..
  have hlive : (s.setRecord i { r with sortCommitted := true }).live i = true :=
    (State.setRecord_live (r := { r with sortCommitted := true }) rfl i).trans live
  have hcommit : s.sortCommit i = (s.setRecord i { r with sortCommitted := true }).replacePlacement i pl := by
    rw [State.sortCommit_pocket live disp placement, State.sortPocket_replaces (by exact gone)]
  have hmoved : ((s.setRecord i { r with sortCommitted := true }).withoutPlacement pl).setRecord i
      { r with sortCommitted := true, placement := none } = moved :=
    State.setRecord_twice i _ _ (s.withoutPlacement pl)
  have hmovedRecord : moved.record i = { r with sortCommitted := true, placement := none } := State.record_setRecord ..
  have hmovedLive : moved.live i = true :=
    (State.setRecord_live (s := s.withoutPlacement pl) (r := { r with sortCommitted := true, placement := none }) rfl i).trans
      live
  obtain ⟨hplaces, hfails⟩ := State.replacePlacement_eq (g := r.grade) (t := moved) hlive
    (by rw [hrecord]; exact placement) (by rw [hrecord]; rfl) (by rw [hrecord]; exact hmoved)
  rw [hrecord] at hplaces
  rw [hrecord] at hfails
  refine ⟨fun g p row grade hfound => ?place, fun nowhere => ?bin⟩
  case place =>
    intro t k
    have hbind : (r.grade.bind fun x => moved.placeAtSort pl.pocket x r.pieceLen) = some (p, row) := by
      rw [grade]
      exact hfound
    have haccepting : (moved.pocket p).state ∈ [PocketState.empty, .filling] :=
      ((State.place_iff _ _ _).mp (State.test_of_walk _ _ _ hfound)).1
    have hstate := State.reserve_state (i := i) row r.pieceLen haccepting
    have hplaced : t.record i = { r with
        sortCommitted := true
        disp := .pocket p
        placement := some ⟨p, row, r.pieceLen + k.cfg.joint⟩ } := by
      have hjoint : (moved.pocket p).cfg = k.cfg := (State.withoutPlacement_pocket pl p s).1
      rw [State.reserve_record row r.pieceLen hmovedLive, hmovedRecord, hjoint]
      rfl
    refine ⟨?_, hstate, hplaced⟩
    have htlive : t.live i = true := by
      unfold State.live at live ⊢
      rw [hplaced]
      exact live
    rw [hcommit, hplaces p row hbind, State.sortCommit_pocket htlive (by rw [hplaced]) (by rw [hplaced]),
      State.setRecord_marked (by rw [hplaced]), State.sortPocket_takes (by exact hstate)]
    rfl
  case bin =>
    have hbind : (r.grade.bind fun x => moved.placeAtSort pl.pocket x r.pieceLen) = none := by
      cases h : r.grade with
      | none => rfl
      | some g => exact nowhere g h
    have hwritten : moved.writeDisposition i ((s.setRecord i { r with sortCommitted := true }).overflowBin .noFit)
        = moved.setRecord i { r with
          sortCommitted := true
          placement := none
          disp := .bin s.run.settings.overflow .noFit } := by
      rw [State.writeDisposition_unplaced hmovedLive (by rw [hmovedRecord]; exact (congrArg Disposition.falls disp))
        (by rw [hmovedRecord]) rfl, hmovedRecord]
      rfl
    rw [hcommit, hfails hbind, hwritten, State.sortCommit_bin _ (by rw [State.record_setRecord]),
      State.setRecord_marked (by rw [State.record_setRecord])]
    exact (State.setRecord_live (by rw [hmovedRecord]) i).trans hmovedLive

end Sys2Proof.Machine
end

section
/-! The kick of a piece (R34, R142, R143). -/

namespace Sys2Proof.Machine

open Sys2Proof.Config

namespace State

/-! ### A pulse that fires (R121) -/

section
variable {x : Sec} {tag : Nat} {l : Fin 24} {s : State}

theorem firedPulse_paired {p : Fin 6} (paired : s.pairOf l = some p) :
    s.firedPulse x tag l = s.offer (.lineInPair (.unit x) tag l p) := by
  rw [firedPulse, paired]

theorem firedPulse_free (free : s.pairOf l = none) : s.firedPulse x tag l = s.pulseRequest l := by
  rw [firedPulse, free]

end

/-! ### An unplaced record released leaves the pockets -/

theorem release_pocket {s : State} {i : Fin 64} (live : s.live i = true) (unplaced : (s.record i).placement = none)
    (p : Fin 12) : (s.release i).pocket p = s.pocket p := by
  have hback : s.handedBack (s.record i) = s := by rw [handedBack, unplaced]
  have hpockets := (release_released live).pockets
  rw [hback] at hpockets
  exact congrArg (fun v : Vector Pocket 12 => v[p]) hpockets

/-! ### The kick of a piece of a bundle (R142) -/

/-- A bundle with a piece of a row committed. -/
def committing (b : Bundle) (pl : Placement) (len : Nat) (band : Fin 8) : Bundle := { b with
  reserved := b.reserved.set pl.row (b.reserved[pl.row] - pl.amount)
  committed := b.committed.set pl.row (b.committed[pl.row] + pl.amount)
  pieces := b.pieces + 1
  reservations := b.reservations - 1
  total := b.total + len
  histogram := b.histogram.set band (b.histogram[band] + 1) }

/-- The state in which the piece of a bundle is released: committed, counted and reported. -/
def kicking (i : Fin 64) (pl : Placement) (s : State) : State :=
  let u := ((s.commitPiece pl (s.record i).pieceLen).writeRecord i (fun r => { r with placement := none })).countKick pl.pocket
  u.offer (.piece ((u.record i).info (some pl.row)))

theorem kickBundle_eq (i : Fin 64) (pl : Placement) (s : State) :
    s.kickBundle i pl = ((s.kicking i pl).release i).closingTest pl.pocket := rfl

section
variable {s : State} {i : Fin 64} (live : s.live i = true) (pl : Placement)

include live

theorem kicking_record : (s.kicking i pl).record i = { s.record i with placement := none } := by
  have hoffer : ∀ (u : State) (r : Report), (u.offer r).record i = u.record i := fun u r =>
    congrArg (fun q : Pool => q.records[i]) ((PocketsMoved.refl u).offer r).pool
  have hlive : (s.commitPiece pl (s.record i).pieceLen).live i = true := live
  exact (hoffer _ _).trans (record_writeRecord i _ _ hlive)

theorem kicking_live : (s.kicking i pl).live i = true := by
  unfold State.live at live ⊢
  rw [kicking_record live]
  exact live

theorem kicking_pocket (p : Fin 12) : (s.kicking i pl).pocket p = (s.commitPiece pl (s.record i).pieceLen).pocket p := by
  refine (offer_pocket ..).trans ?_
  rw [writeRecord_live_eq (by exact live)]
  rfl

theorem kicking_kicked : (s.kicking i pl).run.counters.kicked
    = s.run.counters.kicked.set pl.pocket (s.run.counters.kicked[pl.pocket] + 1) := by
  refine (congrArg (fun r : RunControl => r.counters.kicked) ((PocketsMoved.refl _).offer _).run).trans ?_
  rw [writeRecord_live_eq (by exact live)]
  rfl

end

/-! ### The kick of a piece of a bin (R143) -/

/-- The state in which the piece of a bin is released: counted twice and reported. -/
def kickingBin (i : Fin 64) (p : Fin 12) (s : State) : State :=
  let u := (s.modPocket p (fun k => { k with count := k.count + 1 })).countKick p
  u.offer (.piece ((u.record i).info none))

theorem kickBin_eq (i : Fin 64) (p : Fin 12) (s : State) :
    s.kickBin i p = ((s.kickingBin i p).release i).binFollows p := rfl

theorem kickingBin_pool (i : Fin 64) (p : Fin 12) (s : State) : (s.kickingBin i p).pool = s.pool :=
  ((PocketsMoved.refl _).offer _).pool

theorem kickingBin_kicked (i : Fin 64) (p : Fin 12) (s : State) : (s.kickingBin i p).run.counters.kicked
    = s.run.counters.kicked.set p (s.run.counters.kicked[p] + 1) :=
  congrArg (fun r : RunControl => r.counters.kicked) ((PocketsMoved.refl _).offer _).run

section
variable {s : State} {p : Fin 12}

theorem binFollows_moved (p : Fin 12) (s : State) (takes : (s.pocket p).state ∈ [PocketState.empty, .filling]) :
    s.PocketsMoved (s.binFollows p) := by
  simp only [List.mem_cons, List.not_mem_nil, or_false] at takes
  unfold binFollows
  dsimp only
  rcases takes with h | h <;> rw [h] <;> dsimp only <;> split
  · exact (PocketsMoved.refl s).movePocket ..
  · exact (PocketsMoved.refl s).movePocket ..
  · exact (PocketsMoved.refl s).movePocket ..
  · exact .refl s

theorem binFollows_pocket (takes : (s.pocket p).state ∈ [PocketState.empty, .filling]) :
    (s.binFollows p).pocket p = { s.pocket p with
      state := if (s.pocket p).cfg.capacity ≤ (s.pocket p).count then .full else .filling } := by
  have hmove : ∀ new event, (s.movePocket p new event 0).pocket p = { s.pocket p with state := new } := by
    intro new event
    rw [movePocket_eq, offer_pocket, pocket_modPocket]
  simp only [List.mem_cons, List.not_mem_nil, or_false] at takes
  unfold binFollows
  dsimp only
  by_cases full : (s.pocket p).cfg.capacity ≤ (s.pocket p).count
  · rcases takes with h | h <;> rw [h] <;> simp only [if_pos full, hmove]
  · rcases takes with h | h
    · rw [h]
      simp only [if_neg full, hmove]
    · rw [h]
      simp only [if_neg full]
      rw [← h]

theorem binFollows_pocket_of_ne (takes : (s.pocket p).state ∈ [PocketState.empty, .filling]) {q : Fin 12} (h : q ≠ p) :
    (s.binFollows p).pocket q = s.pocket q := by
  have hmove : ∀ new event, (s.movePocket p new event 0).pocket q = s.pocket q := by
    intro new event
    rw [movePocket_eq, offer_pocket, pocket_modPocket_of_ne _ _ _ _ h]
  simp only [List.mem_cons, List.not_mem_nil, or_false] at takes
  unfold binFollows
  dsimp only
  rcases takes with k | k <;> rw [k] <;> dsimp only <;> split
  · exact hmove ..
  · exact hmove ..
  · exact hmove ..
  · rfl

end

end State

/-- Settles O24: the pulse or its report, and then the commit or the count, the release, and the pocket's own test. -/
theorem piecesKicked : Obligations.PiecesKicked := by
  refine ⟨?fires, ?taken⟩
  case fires =>
    intro s e l action S fired
    have hfire : s.fireEntry .s4 e = ((fired.firedPulse .s4 (s.record e.index).tag l).kickTaken e.index).drainTest :=
      State.fireEntry_kick s action
    refine ⟨fun p paired => ?_, fun free held => ?_, fun free loose => ?_⟩
    · rw [hfire, State.firedPulse_paired (by exact paired)]
    · rw [hfire, State.firedPulse_free (by exact free), State.pulseRequest_held (by exact held)]
    · intro x struck pulsed
      rw [hfire, State.firedPulse_free (by exact free), State.pulseRequest_of_ne (by exact loose), State.beginPulse_struck]
      rfl
  case taken =>
    intro s i live
    refine ⟨fun p pl b disp placement filling bundle => ?bundle, fun p why disp unplaced takes => ?binned⟩
    case bundle =>
      intro len band t
      have htaken : t = ((s.kicking i pl).release i).closingTest pl.pocket := by
        have h : s.kickTaken i = s.kickBundle i pl := by
          unfold State.kickTaken
          rw [disp, placement]
        exact h
      have hlive := State.kicking_live live pl
      have hrecord := State.kicking_record live pl
      have hpocket : ∀ q, ((s.kicking i pl).release i).pocket q = (s.commitPiece pl len).pocket q := fun q =>
        (State.release_pocket hlive (by rw [hrecord]) q).trans (State.kicking_pocket live pl q)
      have hcommitted : (s.commitPiece pl len).pocket pl.pocket = { s.pocket pl.pocket with
          bundle := (s.pocket pl.pocket).bundle.map (fun b => State.committing b pl len band) } :=
        State.pocket_modPocket ..
      have htest : t = (s.kicking i pl).release i := by
        rw [htaken]
        exact State.closingTest_of_state (by rw [hpocket, hcommitted, filling]; decide)
      have hreleased := State.release_released hlive
      rw [← htest] at hpocket hreleased
      refine ⟨?_, ?_, fun q hq => ?_, hreleased.blank, ?_⟩
      · rw [hpocket, hcommitted, bundle]
        rfl
      · rw [hpocket, hcommitted]
        exact filling
      · rw [hpocket]
        exact State.pocket_modPocket_of_ne _ _ _ _ hq
      · rw [hreleased.counters, State.kicking_kicked live]
    case binned =>
      intro t
      have htaken : t = ((s.kickingBin i p).release i).binFollows p := by
        have h : s.kickTaken i = s.kickBin i p := by
          unfold State.kickTaken
          rw [disp]
        exact h
      have hpool := State.kickingBin_pool i p s
      have hlive : (s.kickingBin i p).live i = true := (State.live_of_pool hpool i).trans live
      have hunplaced : ((s.kickingBin i p).record i).placement = none :=
        (congrArg (fun q : Pool => q.records[i].placement) hpool).trans unplaced
      have hreleased := State.release_released hlive
      have hpocket : ∀ q, ((s.kickingBin i p).release i).pocket q
          = (s.modPocket p (fun k => { k with count := k.count + 1 })).pocket q := fun q =>
        (State.release_pocket hlive hunplaced q).trans (State.offer_pocket ..)
      have hcounted : ((s.kickingBin i p).release i).pocket p = { s.pocket p with count := (s.pocket p).count + 1 } :=
        (hpocket p).trans (State.pocket_modPocket ..)
      have htakes : (((s.kickingBin i p).release i).pocket p).state ∈ [PocketState.empty, .filling] := by
        rw [hcounted]
        exact takes
      have hmoved := State.binFollows_moved p _ htakes
      rw [htaken]
      refine ⟨?_, ?_, fun q hq => ?_, ?_, ?_⟩
      · rw [State.binFollows_pocket htakes, hcounted]
      · rw [State.binFollows_pocket htakes, hcounted]
      · rw [State.binFollows_pocket_of_ne htakes hq, hpocket]
        exact State.pocket_modPocket_of_ne _ _ _ _ hq
      · exact (congrArg (fun q : Pool => q.records[i]) hmoved.pool).trans hreleased.blank
      · rw [hmoved.run, hreleased.counters, State.kickingBin_kicked]

end Sys2Proof.Machine
end

section
/-! The scan link's queues and the frames that change no record (R51 to R54, R58). -/

namespace Sys2Proof.Machine

open Sys2Proof.Config

/-! ### The frame at the head of the intake queue (R53, R54) -/

theorem Frame.isMalformed_iff (f : Frame) : f.isMalformed = true ↔ (f.kind = 0x11 → parseDefects f.payload = none)
    ∧ (f.kind = 0x12 → parseScanEnd f.payload = none) ∧ (f.kind = 0x13 → parseProfile f.payload = none) := by
  unfold isMalformed
  by_cases defects : f.kind = 0x11
  · rw [if_pos defects, Option.isNone_iff_eq_none]
    exact ⟨fun h => ⟨fun _ => h, fun k => absurd (defects.symm.trans k) (by decide),
      fun k => absurd (defects.symm.trans k) (by decide)⟩, fun ⟨h, _, _⟩ => h defects⟩
  · rw [if_neg defects]
    by_cases ends : f.kind = 0x12
    · rw [if_pos ends, Option.isNone_iff_eq_none]
      exact ⟨fun h => ⟨fun k => absurd k defects, fun _ => h, fun k => absurd (ends.symm.trans k) (by decide)⟩,
        fun ⟨_, h, _⟩ => h ends⟩
    · rw [if_neg ends]
      by_cases profile : f.kind = 0x13
      · rw [if_pos profile, Option.isNone_iff_eq_none]
        exact ⟨fun h => ⟨fun k => absurd k defects, fun k => absurd k ends, fun _ => h⟩, fun ⟨_, _, h⟩ => h profile⟩
      · rw [if_neg profile]
        exact ⟨fun _ => ⟨fun k => absurd k defects, fun k => absurd k ends, fun k => absurd k profile⟩, fun _ => rfl⟩

namespace State

/-- The frame at the head of the intake queue has left it. -/
def unqueued (rest : List Frame) (s : State) : State := { s with scan := { s.scan with queue := rest } }

section
variable {s : State} {f : Frame} {rest : List Frame} (head : s.scan.queue = f :: rest)

include head

theorem takeFrame_head (deal : Frame → State → State) (test : Frame → Bool) (fits : test f = true) :
    (if s.headFits test then s.takeFrame deal else s) = if s.running then deal f (s.unqueued rest) else s.unqueued rest := by
  have hfits : s.headFits test = true := by
    unfold headFits
    rw [head]
    exact fits
  rw [if_pos hfits, takeFrame, head]
  rfl

theorem exec_defects_head (kind : f.kind = 0x11) : exec .defects s
    = .next (if s.running then (s.unqueued rest).takeDefects f else s.unqueued rest) :=
  congrArg Host.Outcome.next (takeFrame_head head _ _ (decide_eq_true kind))

theorem exec_scanEnd_head (kind : f.kind = 0x12) : exec .scanEnd s
    = .next (if s.running then (s.unqueued rest).takeScanEnd f else s.unqueued rest) :=
  congrArg Host.Outcome.next (takeFrame_head head _ _ (decide_eq_true kind))

theorem exec_profile_head (kind : f.kind = 0x13) : exec .profile s
    = .next (if s.running then (s.unqueued rest).takeProfile f else s.unqueued rest) :=
  congrArg Host.Outcome.next (takeFrame_head head _ _ (decide_eq_true kind))

theorem exec_malformed_head (malformed : f.isMalformed = true) : exec .malformedScanFrame s
    = .next (if s.running then (s.unqueued rest).malformed f else s.unqueued rest) :=
  congrArg Host.Outcome.next (takeFrame_head head _ _ malformed)

theorem exec_malformed_other (formed : f.isMalformed = false) : exec .malformedScanFrame s = .next s := by
  have hfits : s.headFits Frame.isMalformed = false := by
    unfold headFits
    rw [head]
    exact formed
  exact congrArg Host.Outcome.next (if_neg (by rw [hfits]; decide))

end

/-! ### The frames of a kind (R54) -/

section
variable {s : State} {f : Frame}

theorem takeDefects_malformed (h : parseDefects f.payload = none) : s.takeDefects f = s.malformed f := by
  rw [takeDefects, h]

theorem takeScanEnd_malformed (h : parseScanEnd f.payload = none) : s.takeScanEnd f = s.malformed f := by
  rw [takeScanEnd, h]

theorem takeProfile_malformed (h : parseProfile f.payload = none) : s.takeProfile f = s.malformed f := by
  rw [takeProfile, h]

section
variable {d : DefectsFrame} (h : parseDefects f.payload = some d)

include h

theorem takeDefects_unknown (tag : s.findTag d.tag = none) : s.takeDefects f = s.unknownTag d.face.head := by
  rw [takeDefects, h]
  dsimp only
  rw [tag]

variable {i : Fin 64} (tag : s.findTag d.tag = some i)

include tag

theorem takeDefects_late (late : s.faceLate i d.face = true) : s.takeDefects f = s.lateFrame d.face.head := by
  rw [takeDefects, h]
  dsimp only
  rw [tag]
  exact if_pos late

theorem takeDefects_degraded (due : s.faceLate i d.face = false) (degraded : (s.head d.face.head).degraded = true) :
    s.takeDefects f = (s.spoilFace i d.face .degraded).headFrame d.face.head false := by
  rw [takeDefects, h]
  dsimp only
  rw [tag]
  exact (if_neg (by rw [due]; decide)).trans (if_pos degraded)

theorem takeDefects_attaches (due : s.faceLate i d.face = false) (normal : (s.head d.face.head).degraded = false) :
    s.takeDefects f = (s.attachFrame i d).headFrame d.face.head false := by
  rw [takeDefects, h]
  dsimp only
  rw [tag]
  exact (if_neg (by rw [due]; decide)).trans (if_neg (by rw [normal]; decide))

end

section
variable {n : Nat} {face : Face} {total : Nat} (h : parseScanEnd f.payload = some (n, face, total))

include h

theorem takeScanEnd_unknown (tag : s.findTag n = none) : s.takeScanEnd f = s.unknownTag face.head := by
  rw [takeScanEnd, h]
  dsimp only
  rw [tag]

variable {i : Fin 64} (tag : s.findTag n = some i)

include tag

theorem takeScanEnd_late (late : s.faceLate i face = true) : s.takeScanEnd f = s.lateFrame face.head := by
  rw [takeScanEnd, h]
  dsimp only
  rw [tag]
  exact if_pos late

theorem takeScanEnd_degraded (due : s.faceLate i face = false) (degraded : (s.head face.head).degraded = true) :
    s.takeScanEnd f = (s.spoilFace i face .degraded).headFrame face.head false := by
  rw [takeScanEnd, h]
  dsimp only
  rw [tag]
  exact (if_neg (by rw [due]; decide)).trans (if_pos degraded)

theorem takeScanEnd_closes (due : s.faceLate i face = false) (normal : (s.head face.head).degraded = false) :
    s.takeScanEnd f = s.closeFace i face total := by
  rw [takeScanEnd, h]
  dsimp only
  rw [tag]
  exact (if_neg (by rw [due]; decide)).trans (if_neg (by rw [normal]; decide))

end

section
variable {n : Nat} {v : Vector Nat 4} (h : parseProfile f.payload = some (n, v))

include h

theorem takeProfile_unknown (tag : s.findTag n = none) : s.takeProfile f = s.unknownTag .profile := by
  rw [takeProfile, h]
  dsimp only
  rw [tag]

variable {i : Fin 64} (tag : s.findTag n = some i)

include tag

theorem takeProfile_late (late : (s.record i).sortCommitted = true ∨ (s.record i).profile ≠ .awaiting) :
    s.takeProfile f = s.lateFrame .profile := by
  rw [takeProfile, h]
  dsimp only
  rw [tag]
  exact if_pos late

variable (due : (s.record i).sortCommitted = false) (awaits : (s.record i).profile = .awaiting)

include due awaits

theorem takeProfile_degraded (degraded : s.scan.profile.degraded = true) : s.takeProfile f
    = (s.writeRecord i (fun r => { r with profile := .unchecked })).headFrame .profile false := by
  rw [takeProfile, h]
  dsimp only
  rw [tag]
  exact (if_neg (by simp [due, awaits])).trans (if_pos degraded)

theorem takeProfile_checks (normal : s.scan.profile.degraded = false) : s.takeProfile f
    = (s.takeProfileValues i v).headFrame .profile false := by
  rw [takeProfile, h]
  dsimp only
  rw [tag]
  exact (if_neg (by simp [due, awaits])).trans (if_neg (by rw [normal]; decide))

end

end

theorem faceLate_iff (s : State) (i : Fin 64) (face : Face) : s.faceLate i face = true
    ↔ (s.record i).committed = true ∨ (s.record i).face face ≠ .awaiting := by
  rw [faceLate, Bool.or_eq_true, decide_eq_true_iff]

theorem faceLate_due {s : State} {i : Fin 64} {face : Face} (before : (s.record i).committed = false)
    (awaits : (s.record i).face face = .awaiting) : s.faceLate i face = false := by
  rw [faceLate, before, awaits]
  rfl

end State

/-- Settles O25: a frame leaves the queue, and its row deals with it by what it holds. -/
theorem scanLinkQueues : Obligations.ScanLinkQueues := by
  refine ⟨⟨fun s => rfl, fun s kind id p => ⟨fun room => ?room, fun full => ?full⟩⟩, ?head⟩
  case room => exact congrArg Host.Outcome.next (if_pos room)
  case full => exact congrArg Host.Outcome.next (if_neg (Nat.not_lt.mpr full))
  case head =>
    intro s f rest head malformed left counted
    have hmalformed : malformed → f.isMalformed = true := f.isMalformed_iff.mpr
    refine ⟨fun stopped => ?stopped, fun runs broken => ?broken, fun runs => ?formed, fun whole => ?other⟩
    case stopped =>
      have hnot : ¬ s.running = true := by rw [stopped]; decide
      refine ⟨fun kind => ?_, fun kind => ?_, fun kind => ?_, fun broken => ?_⟩
      · rw [State.exec_defects_head head kind, if_neg hnot]
        rfl
      · rw [State.exec_scanEnd_head head kind, if_neg hnot]
        rfl
      · rw [State.exec_profile_head head kind, if_neg hnot]
        rfl
      · rw [State.exec_malformed_head head (hmalformed broken), if_neg hnot]
        rfl
    case broken =>
      have hexec : exec .malformedScanFrame s = .next ((s.unqueued rest).malformed f) := by
        rw [State.exec_malformed_head head (hmalformed broken), if_pos runs]
      obtain ⟨defects, ends, profile⟩ := broken
      refine ⟨fun unreadable => ?_, fun h readable => ?_, fun kind => ?_, fun kind => ?_, fun kind => ?_⟩
      · rw [hexec, State.malformed, unreadable]
        rfl
      · rw [hexec, State.malformed, readable]
        exact congrArg Host.Outcome.next (State.headFrame_judged (s := counted) runs)
      · rw [hexec, State.exec_defects_head head kind, if_pos runs, State.takeDefects_malformed (defects kind)]
      · rw [hexec, State.exec_scanEnd_head head kind, if_pos runs, State.takeScanEnd_malformed (ends kind)]
      · rw [hexec, State.exec_profile_head head kind, if_pos runs, State.takeProfile_malformed (profile kind)]
    case formed =>
      intro unknown late
      have hunknown : ∀ h, (s.unqueued rest).unknownTag h = unknown.judged h true := fun h =>
        State.headFrame_judged (s := unknown) runs
      have hlate : ∀ h, (s.unqueued rest).lateFrame h = late.judged h false := fun h =>
        State.headFrame_judged (s := late) runs
      refine ⟨fun d kind parsed => ?_, fun tag face total kind parsed => ?_, fun tag v kind parsed => ?_⟩
      · rw [State.exec_defects_head head kind, if_pos runs]
        refine ⟨fun absent => ?_, fun i found passed => ?_⟩
        · rw [State.takeDefects_unknown (s := s.unqueued rest) parsed (by exact absent), hunknown]
        · rw [State.takeDefects_late (s := s.unqueued rest) parsed (by exact found) ((State.faceLate_iff _ _ _).mpr passed), hlate]
      · rw [State.exec_scanEnd_head head kind, if_pos runs]
        refine ⟨fun absent => ?_, fun i found passed => ?_⟩
        · rw [State.takeScanEnd_unknown (s := s.unqueued rest) parsed (by exact absent), hunknown]
        · rw [State.takeScanEnd_late (s := s.unqueued rest) parsed (by exact found) ((State.faceLate_iff _ _ _).mpr passed), hlate]
      · rw [State.exec_profile_head head kind, if_pos runs]
        refine ⟨fun absent => ?_, fun i found passed => ?_⟩
        · rw [State.takeProfile_unknown (s := s.unqueued rest) parsed (by exact absent), hunknown]
        · rw [State.takeProfile_late (s := s.unqueued rest) parsed (by exact found) (by exact passed), hlate]
    case other =>
      refine State.exec_malformed_other head ?_
      rw [← Bool.not_eq_true, f.isMalformed_iff]
      exact whole

end Sys2Proof.Machine
end

section
/-! The defects of a strip's faces (R55, R60, R62). -/

namespace Sys2Proof.Machine

open Sys2Proof.Config

/-! ### Faces and tallies -/

theorem Record.face_setFace (r : Record) (f : Face) (st : FaceStatus) : (r.setFace f st).face f = st := by
  cases f <;> rfl

theorem Tallies.face_setFace (t : Tallies) (f : Face) (y : Tally) : (t.setFace f y).face f = y := by
  cases f <;> rfl

theorem Tallies.setFace_setFace (t : Tallies) (f : Face) (y z : Tally) : (t.setFace f y).setFace f z = t.setFace f z := by
  cases f <;> rfl

theorem parseDefects_entries {p : List Byte} {d : DefectsFrame} (h : parseDefects p = some d) : d.entries ≠ [] := by
  unfold parseDefects at h
  dsimp only at h
  split at h
  · rename_i hform
    obtain ⟨-, -, hone, -, -⟩ := hform
    obtain ⟨f, -, rfl⟩ := Option.map_eq_some_iff.mp h
    intro hempty
    have hlength := congrArg List.length hempty
    simp only [rawDefects, List.length_map, List.length_range, List.length_nil] at hlength
    omega
  · exact absurd h (by simp)

namespace State

/-! ### Entries that join the list (R55) -/

/-- A face's tally replaced. -/
def tallying (i : Fin 64) (f : Face) (y : Tally) (s : State) : State :=
  { s with scan := { s.scan with tallies := s.scan.tallies.set i (s.scan.tallies[i].setFace f y) } }

theorem modTally_eq (i : Fin 64) (f : Face) (g : Tally → Tally) (s : State) :
    s.modTally i f g = s.tallying i f (g (s.tally i f)) := rfl

theorem tally_tallying (i : Fin 64) (f : Face) (y : Tally) (s : State) : (s.tallying i f y).tally i f = y := by
  simp [tally, tallying, Tallies.face_setFace]

theorem tallying_twice (i : Fin 64) (f : Face) (y z : Tally) (s : State) :
    (s.tallying i f y).tallying i f z = s.tallying i f z := by
  simp [tallying, Tallies.setFace_setFace]

theorem tallying_self (i : Fin 64) (f : Face) (s : State) : s.tallying i f (s.tally i f) = s := by
  have hsame : s.scan.tallies[i].setFace f (s.tally i f) = s.scan.tallies[i] := by cases f <;> rfl
  unfold tallying
  rw [hsame]
  simp

theorem setRecord_tallying (i : Fin 64) (f : Face) (y : Tally) (r : Record) (s : State) :
    (s.setRecord i r).tallying i f y = (s.tallying i f y).setRecord i r := rfl

/-- Defect entries joined to a record's list and counted in the face's tally. -/
def joining (i : Fin 64) (f : Face) (ds : List RawDefect) (s : State) : State :=
  (s.tallying i f { (s.tally i f) with count := (s.tally i f).count + ds.length }).setRecord i
    { s.record i with defects := (s.record i).defects ++ ds.map (fun d => d.clamped f (s.record i).len) }

section
variable {s : State} {i : Fin 64} (f : Face)

theorem joining_record (ds : List RawDefect) : (s.joining i f ds).record i
    = { s.record i with defects := (s.record i).defects ++ ds.map (fun d => d.clamped f (s.record i).len) } :=
  record_setRecord ..

theorem joining_tally (ds : List RawDefect) : (s.joining i f ds).tally i f
    = { (s.tally i f) with count := (s.tally i f).count + ds.length } := tally_tallying ..

theorem joining_nil : s.joining i f [] = s := by
  unfold joining
  rw [List.map_nil, List.append_nil]
  refine (congrArg (State.setRecord i (s.record i)) (tallying_self i f s)).trans ?_
  simp [setRecord, record]

theorem joining_joining (ds es : List RawDefect) :
    (s.joining i f ds).joining i f es = s.joining i f (ds ++ es) := by
  have hrecord := joining_record (s := s) (i := i) f ds
  have htally := joining_tally (s := s) (i := i) f ds
  conv_lhs => rw [joining, hrecord, htally]
  unfold joining
  rw [setRecord_tallying, tallying_twice, setRecord_twice, List.map_append, List.append_assoc, List.length_append,
    Nat.add_assoc]

variable (live : s.live i = true)

include live

theorem joining_live (ds : List RawDefect) : (s.joining i f ds).live i = true := by
  unfold State.live at live ⊢
  rw [joining_record]
  exact live

theorem joinDefect_eq (d : RawDefect) : s.joinDefect i f d = s.joining i f [d] := by
  unfold joinDefect
  rw [writeRecord_live_eq live]
  rfl

end

/-- Entries for which there is room all join. -/
theorem attachDefects_fits {i : Fin 64} (f : Face) : ∀ (ds : List RawDefect) (s : State), s.live i = true →
    (s.record i).defects.length + ds.length ≤ 16 → attachDefects i f ds s = s.joining i f ds := by
  intro ds
  induction ds with
  | nil => exact fun s _ _ => (joining_nil f).symm
  | cons d ds ih =>
    intro s live fits
    rw [List.length_cons] at fits
    have hroom : (s.record i).defects.length < 16 := by omega
    have hnext : ((s.joining i f [d]).record i).defects.length + ds.length ≤ 16 := by
      rw [joining_record]
      simp only [List.length_append, List.length_map, List.length_cons, List.length_nil]
      omega
    rw [attachDefects, if_pos (by exact hroom), joinDefect_eq f live, ih _ (joining_live f live [d]) hnext, joining_joining]
    rfl

/-- Entries up to the sixteenth join, and the next one spoils the face. -/
theorem attachDefects_overflows {i : Fin 64} (f : Face) : ∀ (ds : List RawDefect) (s : State), s.live i = true → ds ≠ [] →
    16 < (s.record i).defects.length + ds.length → attachDefects i f ds s
      = (s.joining i f (ds.take (16 - (s.record i).defects.length))).spoilFace i f .overflow := by
  intro ds
  induction ds with
  | nil => exact fun s _ some' => absurd rfl some'
  | cons d ds ih =>
    intro s live _ excess
    rw [List.length_cons] at excess
    by_cases hroom : (s.record i).defects.length < 16
    · have hlength : ((s.joining i f [d]).record i).defects.length = (s.record i).defects.length + 1 := by
        rw [joining_record]
        simp
      have hmore : ds ≠ [] := by
        rintro rfl
        rw [List.length_nil] at excess
        omega
      have htake : 16 - (s.record i).defects.length = (16 - ((s.record i).defects.length + 1)) + 1 := by omega
      rw [attachDefects, if_pos (by exact hroom), joinDefect_eq f live,
        ih _ (joining_live f live [d]) hmore (by rw [hlength]; omega), joining_joining, hlength, htake, List.take_succ_cons]
      rfl
    · have hfull : 16 - (s.record i).defects.length = 0 := by omega
      rw [attachDefects, if_neg (by exact hroom), hfull, List.take_zero, joining_nil]

/-! ### A frame attached (R55) -/

theorem unscannedAs_face (s : State) (i : Fin 64) (r : Record) (f : Face) :
    ((s.unscannedAs i r).record i).face f = r.face f := by
  unfold unscannedAs
  dsimp only
  split <;> rw [record_setRecord] <;> cases f <;> rfl

theorem unscannedAs_setRecord (s : State) (i : Fin 64) (q r : Record) :
    (s.setRecord i q).unscannedAs i r = s.unscannedAs i r := by
  unfold unscannedAs
  dsimp only
  rw [handedBack_setRecord]
  split <;> simp [setRecord]

theorem unscannedAs_running (s : State) (i : Fin 64) (r : Record) : (s.unscannedAs i r).running = s.running := by
  have hrun := (handedBack_moved r s).run
  unfold unscannedAs
  dsimp only
  split
  · rfl
  · exact congrArg (fun r : RunControl => decide (r.state = .run) || decide (r.state = .drain)) hrun
  · rfl

section
variable {s : State} {i : Fin 64} {d : DefectsFrame} (live : s.live i = true)

include live

theorem attachFrame_fits (awaits : (s.record i).face d.face = .awaiting)
    (fits : (s.record i).defects.length + d.entries.length ≤ 16) : s.attachFrame i d
    = (s.tallying i d.face ⟨(s.tally i d.face).count + d.entries.length, d.more⟩).setRecord i { s.record i with
        defects := (s.record i).defects ++ d.entries.map (fun e => e.clamped d.face (s.record i).len) } := by
  have hawaits : ((s.joining i d.face d.entries).record i).face d.face = .awaiting := by
    rw [joining_record]
    exact awaits
  unfold attachFrame
  dsimp only
  rw [attachDefects_fits d.face d.entries s live fits, if_pos hawaits, modTally_eq, joining_tally, joining, setRecord_tallying,
    tallying_twice]

theorem attachFrame_overflows (some' : d.entries ≠ []) (excess : 16 < (s.record i).defects.length + d.entries.length) :
    s.attachFrame i d = (s.tallying i d.face { (s.tally i d.face) with
        count := (s.tally i d.face).count + (d.entries.take (16 - (s.record i).defects.length)).length }).unscannedAs i
      ({ s.record i with defects := (s.record i).defects
        ++ (d.entries.take (16 - (s.record i).defects.length)).map (fun e : RawDefect => e.clamped d.face (s.record i).len)
        }.setFace d.face .overflow) := by
  unfold attachFrame
  dsimp only
  rw [attachDefects_overflows d.face d.entries s live some' excess, spoilFace_eq (joining_live d.face live _),
    if_neg (by rw [unscannedAs_face, Record.face_setFace]; decide), joining_record, joining, unscannedAs_setRecord]

end

end State

/-- Settles O26: the entries join up to the sixteenth, and one beyond it spoils the face. -/
theorem defectsAttach : Obligations.DefectsAttach := by
  intro s f rest d i runs head kind parsed found before awaits r left fits stored joined tallied
  have hlive : left.live i = true := (State.live_of_findTag found).1
  have hexec : exec .defects s = .next (left.takeDefects f) := by
    rw [State.exec_defects_head head kind, if_pos runs]
    rfl
  have hdue : left.faceLate i d.face = false := State.faceLate_due (by exact before) (by exact awaits)
  refine ⟨fun normal => ⟨fun hfits => ?fits, fun hexceeds => ?excess⟩, fun degraded => ?degraded⟩
  case fits =>
    have hstored : stored = d.entries := List.take_of_length_le (by omega)
    have htallied : tallied = left.tallying i d.face ⟨(s.tally i d.face).count + stored.length,
        if fits then d.more else (s.tally i d.face).more⟩ := rfl
    have hjoined : joined = { r with defects := r.defects ++ stored.map (fun e => e.clamped d.face r.len) } := rfl
    have hattached : left.attachFrame i d = tallied.setRecord i joined := by
      rw [State.attachFrame_fits hlive (by exact awaits) (by exact hfits), htallied, hjoined, hstored, if_pos hfits]
      rfl
    rw [hexec, State.takeDefects_attaches (s := left) parsed found hdue (by exact normal), hattached]
    exact congrArg Host.Outcome.next (State.headFrame_judged (s := tallied.setRecord i joined) runs)
  case excess =>
    have htallied : tallied = left.tallying i d.face ⟨(s.tally i d.face).count + stored.length,
        if fits then d.more else (s.tally i d.face).more⟩ := rfl
    have hattached : left.attachFrame i d = tallied.unscannedAs i (joined.setFace d.face .overflow) := by
      rw [State.attachFrame_overflows hlive (parseDefects_entries parsed) (by exact Nat.not_le.mp hexceeds), htallied,
        if_neg hexceeds]
      rfl
    rw [hexec, State.takeDefects_attaches (s := left) parsed found hdue (by exact normal), hattached]
    exact congrArg Host.Outcome.next (State.headFrame_judged ((State.unscannedAs_running ..).trans runs))
  case degraded =>
    rw [hexec, State.takeDefects_degraded (s := left) parsed found hdue (by exact degraded), State.spoilFace_eq hlive]
    exact congrArg Host.Outcome.next (State.headFrame_judged ((State.unscannedAs_running ..).trans runs))

end Sys2Proof.Machine
end

section
/-! The end of a face's scan (R56, R61, R76, R77). -/

namespace Sys2Proof.Machine

open Sys2Proof.Config

namespace State

/-! ### The solve queue (R76, R77) -/

theorem solverNext_busy {s : State} (busy : s.solver.flight.isSome = true) : s.solverNext = s := by
  obtain ⟨f, hf⟩ := Option.isSome_iff_exists.mp busy
  unfold solverNext
  rw [hf]

section
variable {s : State} {i : Fin 64} (live : s.live i = true)

/-- A record at the tail of the solve queue. -/
def queued (i : Fin 64) (s : State) : State :=
  ({ s with solver := { s.solver with queue := s.solver.queue ++ [i] } } : State).setRecord i
    { s.record i with solve := .queued }

include live

theorem solverJoin_eq : s.solverJoin i = (s.queued i).solverNext :=
  congrArg State.solverNext (writeRecord_live_eq (by exact live) _)

theorem solverJoin_busy (busy : s.solver.flight.isSome = true) : s.solverJoin i = s.queued i := by
  rw [solverJoin_eq live, solverNext_busy (by exact busy)]

variable (runs : s.running = true) (idle : s.solver.flight = none)

include runs idle

theorem solverJoin_alone (empty : s.solver.queue = []) : s.solverJoin i
    = ({ s with solver := { s.solver with flight := some ⟨i, s.snapshot⟩ } } : State).setRecord i
      { s.record i with solve := .solving } := by
  have hwaits : (s.queued i).solver.queue = i :: [] := by
    change s.solver.queue ++ [i] = _
    rw [empty]
    rfl
  have hlive : (s.queued i).live i = true := (setRecord_live (s := s) (r := { s.record i with solve := .queued }) rfl i).trans live
  have hrecord : (s.queued i).record i = { s.record i with solve := .queued } := record_setRecord ..
  have hsnapshot : (s.queued i).snapshot = s.snapshot := snapshot_of_pockets rfl
  rw [solverJoin_eq live, solverNext_takes (by exact idle) (by exact runs) hwaits, hsnapshot,
    writeRecord_live_eq (by exact hlive)]
  change ({ s.queued i with solver := { (s.queued i).solver with queue := [], flight := some ⟨i, s.snapshot⟩ } } :
    State).setRecord i { (s.queued i).record i with solve := .solving } = _
  rw [hrecord, ← empty]
  exact setRecord_twice i { s.record i with solve := .queued } { s.record i with solve := .solving }
    { s with solver := { s.solver with flight := some ⟨i, s.snapshot⟩ } }

theorem solverJoin_behind {j : Fin 64} {behind : List (Fin 64)} (waits : s.solver.queue = j :: behind) (apart : j ≠ i)
    (next : s.live j = true) : s.solverJoin i
    = (({ s with solver := { s.solver with
        flight := some ⟨j, s.snapshot⟩
        queue := behind ++ [i] } } : State).setRecord i { s.record i with solve := .queued }).setRecord j
      { s.record j with solve := .solving } := by
  have hwaits : (s.queued i).solver.queue = j :: (behind ++ [i]) := by
    change s.solver.queue ++ [i] = _
    rw [waits]
    rfl
  have hlive : (s.queued i).live j = true := (setRecord_live (s := s) (r := { s.record i with solve := .queued }) rfl j).trans next
  have hrecord : (s.queued i).record j = s.record j := record_setRecord_of_ne i j _ s apart
  have hsnapshot : (s.queued i).snapshot = s.snapshot := snapshot_of_pockets rfl
  rw [solverJoin_eq live, solverNext_takes (by exact idle) (by exact runs) hwaits, hsnapshot,
    writeRecord_live_eq (by exact hlive)]
  exact congrArg (fun q : Record => (({ s with solver := { s.solver with
        flight := some ⟨j, s.snapshot⟩
        queue := behind ++ [i] } } : State).setRecord i { s.record i with solve := .queued }).setRecord j
      { q with solve := .solving }) hrecord

end

/-! ### A face closed (R56, R61) -/

theorem closeFace_failed {s : State} {i : Fin 64} {f : Face} {total : Nat} (live : s.live i = true)
    (unmet : (s.tally i f).count ≠ total ∨ (s.tally i f).more = true) : s.closeFace i f total
    = (s.unscannedAs i ((s.record i).setFace f .failed)).headFrame f.head true := by
  unfold closeFace
  rw [if_neg fun h => unmet.elim (fun hc => hc h.1) (fun hm => by rw [hm] at h; exact absurd h.2 (by decide)),
    spoilFace_eq live]

section
variable {s : State} {i : Fin 64} {f : Face} {total : Nat} (live : s.live i = true) (met : (s.tally i f).count = total)
  (last : (s.tally i f).more = false)

include live met last

theorem closeFace_met : s.closeFace i f total
    = ((s.setRecord i ((s.record i).setFace f .complete)).completionTest i).headFrame f.head false := by
  unfold closeFace
  rw [if_pos ⟨met, last⟩, writeRecord_live_eq live]

end

theorem completionTest_of_record {s : State} {i : Fin 64} {r : Record} (hrecord : s.record i = r) : s.completionTest i
    = if r.top = .complete ∧ r.bottom = .complete ∧ r.disp = .undecided then s.solverJoin i else s := by
  rw [completionTest, hrecord]

end State

/-- Settles O27: the face closes, and a complete strip joins the solver's queue. -/
theorem scanEndCloses : Obligations.ScanEndCloses := by
  intro s f rest tag face total i runs head kind parsed found before awaits r u
  have hlive : u.live i = true := (State.live_of_findTag found).1
  have hexec : exec .scanEnd s = .next (u.takeScanEnd f) := by
    rw [State.exec_scanEnd_head head kind, if_pos runs]
    rfl
  have hdue : u.faceLate i face = false := State.faceLate_due (by exact before) (by exact awaits)
  have hclosed : (u.setRecord i r).record i = r := State.record_setRecord ..
  have hloc : r.loc = (s.record i).loc := by cases face <;> rfl
  have hclosedLive : (u.setRecord i r).live i = true := (State.setRecord_live (s := u) hloc i).trans hlive
  have hjudged : ∀ {t : State} {bad}, t.running = s.running → t.headFrame face.head bad = t.judged face.head bad :=
    fun h => State.headFrame_judged (h.trans runs)
  refine ⟨fun normal => ⟨fun met last => ?met, fun unmet => ?unmet⟩, fun degraded => ?degraded⟩
  case met =>
    intro complete
    have hmet : exec .scanEnd s = .next (((u.setRecord i r).completionTest i).headFrame face.head false) := by
      rw [hexec, State.takeScanEnd_closes (s := u) parsed found hdue (by exact normal),
        State.closeFace_met hlive (by exact met) (by exact last)]
      rfl
    rw [State.completionTest_of_record hclosed] at hmet
    have hsnapshot : (u.setRecord i r).snapshot = s.snapshot := State.snapshot_of_pockets rfl
    refine ⟨fun partly => ?partly, fun whole busy => ?busy, fun whole idle empty => ?alone,
      fun j behind whole idle waits apart next => ?behind⟩
    case partly =>
      rw [hmet, if_neg (by exact partly)]
      exact congrArg Host.Outcome.next (hjudged rfl)
    case busy =>
      have hjoined : (u.setRecord i r).solverJoin i = ({ u with solver := { s.solver with
          queue := s.solver.queue ++ [i] } } : State).setRecord i { r with solve := .queued } := by
        rw [State.solverJoin_busy hclosedLive (by exact busy), State.queued, hclosed]
        exact State.setRecord_twice i r { r with solve := .queued }
          { u with solver := { s.solver with queue := s.solver.queue ++ [i] } }
      rw [hmet, if_pos (by exact whole), hjoined]
      exact congrArg Host.Outcome.next (hjudged rfl)
    case alone =>
      have hjoined : (u.setRecord i r).solverJoin i = ({ u with solver := { s.solver with
          flight := some ⟨i, s.snapshot⟩ } } : State).setRecord i { r with solve := .solving } := by
        rw [State.solverJoin_alone hclosedLive (by exact runs) (by exact idle) (by exact empty), hclosed, hsnapshot]
        exact State.setRecord_twice i r { r with solve := .solving }
          { u with solver := { s.solver with flight := some ⟨i, s.snapshot⟩ } }
      rw [hmet, if_pos (by exact whole), hjoined]
      exact congrArg Host.Outcome.next (hjudged rfl)
    case behind =>
      have hother : (u.setRecord i r).record j = s.record j := State.record_setRecord_of_ne i j r u apart
      have hjoined : (u.setRecord i r).solverJoin i = (({ u with solver := { s.solver with
          flight := some ⟨j, s.snapshot⟩
          queue := behind ++ [i] } } : State).setRecord i { r with solve := .queued }).setRecord j
            { s.record j with solve := .solving } := by
        rw [State.solverJoin_behind hclosedLive (by exact runs) (by exact idle) (by exact waits) apart
          ((State.setRecord_live (s := u) hloc j).trans next), hclosed, hsnapshot, hother]
        exact congrArg (State.setRecord j { s.record j with solve := .solving })
          (State.setRecord_twice i r { r with solve := .queued } { u with solver := { s.solver with
            flight := some ⟨j, s.snapshot⟩
            queue := behind ++ [i] } })
      rw [hmet, if_pos (by exact whole), hjoined]
      exact congrArg Host.Outcome.next (hjudged rfl)
  case unmet =>
    rw [hexec, State.takeScanEnd_closes (s := u) parsed found hdue (by exact normal), State.closeFace_failed hlive (by exact unmet)]
    exact congrArg Host.Outcome.next (hjudged (State.unscannedAs_running ..))
  case degraded =>
    rw [hexec, State.takeScanEnd_degraded (s := u) parsed found hdue (by exact degraded), State.spoilFace_eq hlive]
    exact congrArg Host.Outcome.next (hjudged (State.unscannedAs_running ..))

end Sys2Proof.Machine
end

section
/-! The profile of a strip judged (R57, R92 to R98). -/

namespace Sys2Proof.Machine

open Sys2Proof.Config

/-! ### Deviations and their test (R93) -/

theorem ProfileCheck.deviations_eq (c : ProfileCheck) (v : Vector Nat 4) :
    c.deviations (Vector.ofFn (fun j => min 20000 v[j]))
    = Vector.ofFn (fun j => (min 20000 v[j] : Nat) - (c.dims[j].nominal : Int)) := by
  ext j hj
  simp [deviations]

theorem ProfileCheck.passes_iff (c : ProfileCheck) (d : Vector Int 4) :
    c.passes d = true ↔ ∀ j : Fin 4, d[j].natAbs ≤ c.dims[j].tolerance := by
  simp [passes]

namespace State

/-! ### A strip judged (R93, R94) -/

theorem handedBack_withCheck (c : ProfileCheck) (r : Record) (s : State) :
    ({ s with check := c } : State).handedBack r = { s.handedBack r with check := c } := by
  obtain ⟨ps, ls, q, tx, w, hmoved⟩ := handedBack_moved r s
  have h := handedBack_beside (s := s) (t := { s with check := c }) rfl rfl rfl rfl r
  rw [hmoved] at h ⊢
  exact h

section
variable {s : State} {i : Fin 64} (live : s.live i = true) (d : Vector Int 4)

include live

theorem judgeStrip_pass (passes : s.check.passes d = true) : s.judgeStrip i d
    = s.setRecord i { s.record i with
      deviations := some d
      profile := .pass } := by
  unfold judgeStrip
  rw [if_pos passes, writeRecord_live_eq live]

theorem judgeStrip_fail (fails : s.check.passes d = false) : s.judgeStrip i d
    = ({ if (s.record i).disp.falls then s.handedBack (s.record i) else s with
        check := { s.check with fails := s.check.fails + 1 } } : State).setRecord i { s.record i with
      deviations := some d
      profile := .fail
      disp := if (s.record i).disp.falls then .runoff .profile else (s.record i).disp
      placement := if (s.record i).disp.falls then none else (s.record i).placement } := by
  have hfallen := writeDisposition_fallen (s := ({ s with check := { s.check with fails := s.check.fails + 1 } } : State))
    (i := i) (r := { s.record i with deviations := some d, profile := .fail }) (d := .runoff .profile) live rfl rfl
  have hback : ∀ u : State, u.handedBack { s.record i with deviations := some d, profile := .fail }
      = u.handedBack (s.record i) := fun u => rfl
  unfold judgeStrip
  rw [if_neg (by rw [fails]; decide), writeRecord_live_eq live]
  refine hfallen.trans ?_
  unfold fallen
  rw [hback, handedBack_withCheck]
  cases (s.record i).disp.falls <;> rfl

end

theorem takeProfileValues_off {s : State} {i : Fin 64} (v : Vector Nat 4) (live : s.live i = true)
    (off : s.check.enable = false) :
    s.takeProfileValues i v = s.setRecord i { s.record i with profile := .unchecked } := by
  unfold takeProfileValues
  rw [if_neg (by rw [off]; decide), writeRecord_live_eq live]

theorem takeProfileValues_on {s : State} (i : Fin 64) (v : Vector Nat 4) (on : s.check.enable = true) {d : Vector Int 4}
    (deviations : Vector.ofFn (fun j => (min 20000 v[j] : Nat) - (s.check.dims[j].nominal : Int)) = d) :
    s.takeProfileValues i v = ((s.judgeStrip i d).updateTrends d).trendTest (s.record i).tag := by
  unfold takeProfileValues
  rw [if_pos on, ProfileCheck.deviations_eq, deviations]

theorem moveTrend_running (new : TrendState) (tag : Nat) (s : State) : (s.moveTrend new tag).running = s.running := by
  have hstate : (s.moveTrend new tag).run.state = s.run.state := by
    by_cases h : new = s.check.state
    · rw [moveTrend_same h]
    · rw [moveTrend_changed h, setReasons_state]
      exact congrArg RunControl.state ((PocketsMoved.refl _).offer _).run
  unfold running
  rw [hstate]

end State

/-- Settles O28: the deviations judged, the trends moved, and the trend state tested. -/
theorem profileJudged : Obligations.ProfileJudged := by
  intro s f rest tag v i runs head kind parsed found before awaits r left
  have hlive : left.live i = true := (State.live_of_findTag found).1
  have hexec : exec .profile s = .next (left.takeProfile f) := by
    rw [State.exec_profile_head head kind, if_pos runs]
    rfl
  refine ⟨fun unchecked => ?unchecked, fun normal on => ?checked⟩
  case unchecked =>
    have hunchecked : left.takeProfile f = (left.setRecord i { r with profile := .unchecked }).headFrame .profile false := by
      cases degraded : s.scan.profile.degraded with
      | true =>
        rw [State.takeProfile_degraded (s := left) parsed found (by exact before) (by exact awaits) (by exact degraded),
          State.writeRecord_live_eq hlive]
        rfl
      | false =>
        have off : s.check.enable = false := unchecked.resolve_left (by rw [degraded]; decide)
        rw [State.takeProfile_checks (s := left) parsed found (by exact before) (by exact awaits) (by exact degraded),
          State.takeProfileValues_off v hlive (by exact off)]
        rfl
    rw [hexec, hunchecked]
    exact congrArg Host.Outcome.next (State.headFrame_judged (s := left.setRecord i { r with profile := .unchecked }) runs)
  case checked =>
    intro d trends moved new followed
    have hfollow : ∀ (t : State) (n : _), t.check = { moved with fails := n } → t.trendTest r.tag = followed t := by
      intro t n ht
      have hnext : t.check.nextState = new := by
        rw [ht]
        rfl
      rw [State.trendTest, hnext]
      by_cases h : new = s.check.state
      · rw [State.moveTrend_same (by rw [ht]; exact h)]
        exact (if_pos h).symm
      · rw [State.moveTrend_changed (by rw [ht]; exact h)]
        refine Eq.trans ?_ (if_neg h).symm
        rw [ht]
        rfl
    have hrunning : ∀ t : State, t.running = true → (t.trendTest r.tag).headFrame .profile false
        = (t.trendTest r.tag).judged .profile false := fun t h =>
      State.headFrame_judged ((State.moveTrend_running ..).trans h)
    have htaken : left.takeProfile f = (((left.judgeStrip i d).updateTrends d).trendTest r.tag).headFrame .profile false := by
      rw [State.takeProfile_checks (s := left) parsed found (by exact before) (by exact awaits) (by exact normal),
        State.takeProfileValues_on (s := left) i v on rfl]
      rfl
    refine ⟨fun passes => ?passes, fun fails => ?fails⟩
    case passes =>
      have hjudged : (left.judgeStrip i d).updateTrends d = ({ left with check := moved } : State).setRecord i { r with
          deviations := some d
          profile := .pass } := by
        rw [State.judgeStrip_pass hlive d ((ProfileCheck.passes_iff s.check d).mpr passes)]
        rfl
      rw [hexec, htaken, hjudged, hrunning _ (by exact runs), hfollow _ s.check.fails rfl]
    case fails =>
      intro falls
      have hfails : left.check.passes d = false := by
        rw [← Bool.not_eq_true, ProfileCheck.passes_iff]
        obtain ⟨j, hj⟩ := fails
        exact fun h => absurd hj (Nat.not_lt.mpr (h j))
      have hjudged : (left.judgeStrip i d).updateTrends d = ({ if falls then left.handedBack r else left with
          check := { moved with fails := s.check.fails + 1 } } : State).setRecord i { r with
            deviations := some d
            profile := .fail
            disp := if falls then .runoff .profile else r.disp
            placement := if falls then none else r.placement } := by
        rw [State.judgeStrip_fail hlive d hfails]
        rfl
      have hkept : ((left.judgeStrip i d).updateTrends d).running = true := by
        have hrun : (left.handedBack r).run = left.run := (State.handedBack_moved r left).run
        have hbefore : (if falls then left.handedBack r else left).run = s.run := by
          split
          · exact hrun
          · rfl
        rw [hjudged]
        exact (congrArg (fun q : RunControl => decide (q.state = .run) || decide (q.state = .drain)) hbefore).trans runs
      rw [hexec, htaken, hrunning _ hkept, hjudged, hfollow _ (s.check.fails + 1) rfl]

end Sys2Proof.Machine
end

section
/-! The end of a solve (R77, R87, R88). -/

namespace Sys2Proof.Machine

open Sys2Proof.Config

namespace State

/-! ### A reservation beside the other blocks (R135 to R137) -/

theorem openBundle_onto (p : Fin 12) (s t : State) : (s.onto t).openBundle p = (s.openBundle p).onto t := by
  unfold openBundle
  rw [show (s.onto t).pocket p = s.pocket p from rfl]
  split
  · unfold movePocket
    exact offer_onto _ ((s.modPocket p (fun k => { k with bundle := some { grade := k.cfg.grade } })).modPocket p
      (fun k => { k with state := .filling })) t
  · rfl

section
variable {s t : State} (hpins : t.pins = s.pins) (hclock : t.clock = s.clock)
  (hbank : t.table t.solver.active = s.table s.solver.active)

include hpins hclock hbank

theorem closeBundle_onto (p : Fin 12) (reason : CloseReason) :
    (s.onto t).closeBundle p reason = (s.closeBundle p reason).onto t := by
  have hmoved : ((s.onto t).modBundle p (fun b => { b with closeReason := reason })).movePocket p .closing .closing 0
      = ((s.modBundle p (fun b => { b with closeReason := reason })).movePocket p .closing .closing 0).onto t :=
    offer_onto _ ((s.modBundle p (fun b => { b with closeReason := reason })).modPocket p (fun k => { k with state := .closing })) t
  have hkept : s.PocketsMoved ((s.modBundle p (fun b => { b with closeReason := reason })).movePocket p .closing .closing 0) :=
    ((PocketsMoved.refl s).modBundle p _).movePocket ..
  unfold closeBundle
  rw [hmoved]
  generalize (s.modBundle p (fun b => { b with closeReason := reason })).movePocket p .closing .closing 0 = u at hkept ⊢
  obtain ⟨ps, ls, q, tx, w, rfl⟩ := hkept
  exact closingTest_onto (s := { s with pockets := ps, labels := ls, reports := q, host := { s.host with tx := tx, waiting := w } })
    (t := t) hpins hclock hbank p

theorem fullTest_onto (p : Fin 12) : (s.onto t).fullTest p = (s.fullTest p).onto t := by
  unfold fullTest
  rw [show (s.onto t).pocket p = s.pocket p from rfl]
  split
  · split
    · exact closeBundle_onto hpins hclock hbank p .full
    · split
      · exact closeBundle_onto hpins hclock hbank p .maxPieces
      · rfl
  · rfl

end

/-- The pocket unit's part of a reservation, before the full test. -/
def reserving (p row : Fin 12) (len : Nat) (s : State) : State :=
  (s.openBundle p).modBundle p (fun b => b.reserving row (len + (s.pocket p).cfg.joint))

theorem reserve_eq {s : State} {i : Fin 64} (p row : Fin 12) (len : Nat) (live : s.live i = true) :
    s.reserve i p row len = ((s.reserving p row len).fullTest p).onto
      (s.setRecord i ((s.record i).placedAt p row (len + (s.pocket p).cfg.joint))) := by
  have hkept : s.PocketsMoved (s.reserving p row len) := ((PocketsMoved.refl s).openBundle p).modBundle p _
  have hlive : (s.reserving p row len).live i = true := (live_of_pool hkept.pool i).trans live
  have hwritten : (s.reserving p row len).writeRecord i (fun r => r.placedAt p row (len + (s.pocket p).cfg.joint))
      = (s.reserving p row len).onto (s.setRecord i ((s.record i).placedAt p row (len + (s.pocket p).cfg.joint))) := by
    rw [writeRecord_live_eq hlive]
    obtain ⟨ps, ls, q, tx, w, hmoved⟩ := hkept
    rw [hmoved]
    rfl
  have hreserve : s.reserve i p row len = ((s.reserving p row len).writeRecord i
      (fun r => r.placedAt p row (len + (s.pocket p).cfg.joint))).fullTest p := rfl
  rw [hreserve, hwritten]
  generalize s.reserving p row len = u at hkept ⊢
  obtain ⟨ps, ls, q, tx, w, rfl⟩ := hkept
  exact fullTest_onto (s := { s with pockets := ps, labels := ls, reports := q, host := { s.host with tx := tx, waiting := w } })
    (t := s.setRecord i ((s.record i).placedAt p row (len + (s.pocket p).cfg.joint))) rfl rfl rfl p

/-- The solver's flight is of no account to a reservation. -/
theorem reserve_withFlight {s : State} {i : Fin 64} (p row : Fin 12) (len : Nat) (live : s.live i = true) (f : Option Flight) :
    ({ s with solver := { s.solver with flight := f } } : State).reserve i p row len
    = { s.reserve i p row len with solver := { s.solver with flight := f } } := by
  have hreserving : ({ s with solver := { s.solver with flight := f } } : State).reserving p row len
      = (s.reserving p row len).onto { s with solver := { s.solver with flight := f } } :=
    congrArg (fun u : State => u.modBundle p (fun b => b.reserving row (len + (s.pocket p).cfg.joint)))
      (openBundle_onto p s { s with solver := { s.solver with flight := f } })
  have hkept : s.PocketsMoved (s.reserving p row len) := ((PocketsMoved.refl s).openBundle p).modBundle p _
  rw [reserve_eq p row len (by exact live), reserve_eq p row len live, hreserving]
  generalize s.reserving p row len = u at hkept ⊢
  obtain ⟨ps, ls, q, tx, w, rfl⟩ := hkept
  rw [fullTest_onto (by rfl) (by rfl) (by rfl)]
  rfl

theorem placeAtCompletion_of_pockets {s t : State} (same : t.pockets = s.pockets) (g : Fin 8) (len : Nat) :
    t.placeAtCompletion g len = s.placeAtCompletion g len := by
  unfold placeAtCompletion
  rw [walk_of_pockets same, primary_of_pockets same]

/-! ### The steps of a completion (R87, R88) -/

theorem solverIdle_empty {s : State} (empty : s.solver.queue = []) :
    s.solverIdle = { s with solver := { s.solver with flight := none } } := by
  unfold solverIdle solverNext
  rw [show (s.modSolver (fun v => { v with flight := none })).solver.queue = [] from empty]
  rfl

section
variable {s : State} {f : Flight} (flight : s.solver.flight = some f)

include flight

theorem solveComplete_none (h : s.selection f = none) : s.solveComplete = (s.noCandidate f.index).solverIdle := by
  rw [solveComplete, flight]
  dsimp only
  rw [h]

theorem solveComplete_some {v : Valued} (h : s.selection f = some v) : s.solveComplete
    = ((s.storeSolution f.index v).solveOutcome f.index v).solverIdle := by
  rw [solveComplete, flight]
  dsimp only
  rw [h]

end

theorem solveOutcome_ungraded {s : State} {i : Fin 64} {v : Valued} (grade : v.grade = none) :
    s.solveOutcome i v = s.writeDisposition i (.runoff .noGrade) := by
  rw [solveOutcome, grade]

section
variable {s : State} {i : Fin 64} {v : Valued} {g : Fin 8} (grade : v.grade = some g)
  (undecided : (s.record i).disp = .undecided)

include grade undecided

theorem solveOutcome_unplaced (h : s.placeAtCompletion g v.len = none) :
    s.solveOutcome i v = s.writeDisposition i (.bin s.run.settings.overflow .noFit) := by
  rw [solveOutcome, grade]
  dsimp only
  rw [if_pos undecided, askPlace, h]
  rfl

theorem solveOutcome_placed {p row : Fin 12} (h : s.placeAtCompletion g v.len = some (p, row)) :
    s.solveOutcome i v = s.reserve i p row v.len := by
  rw [solveOutcome, grade]
  dsimp only
  rw [if_pos undecided, askPlace, h]

end

end State

/-- Settles O34: the solution is stored, the piece finds its place or a bin, and the solver is IDLE again. -/
theorem solveCompletes : Obligations.SolveCompletes := by
  intro s f flight empty live undecided unplaced i r chosen u counted
  refine ⟨fun none' => ?nobody, fun v some' => ?some⟩
  case nobody =>
    have hwritten : s.noCandidate i = s.setRecord i { r with
        solve := .none
        disp := .runoff .noGrade } := by
      refine (State.write_fallen live rfl rfl).trans ?_
      have hfalls : (s.record i).disp.falls = true := by
        rw [undecided]
        rfl
      rw [hfalls]
      exact State.fallen_unplaced (by exact unplaced) _ _
    have hexec : exec .solveComplete s = .next (s.noCandidate i).solverIdle :=
      congrArg Host.Outcome.next (State.solveComplete_none flight none')
    rw [hexec, hwritten, State.solverIdle_empty (by exact empty)]
    rfl
  case some =>
    intro solved
    have hstored : s.storeSolution i v = ({ s with run := counted.run } : State).setRecord i solved := by
      unfold State.storeSolution
      rw [State.writeRecord_live_eq live]
      rfl
    have hexec : exec .solveComplete s
        = .next ((({ s with run := counted.run } : State).setRecord i solved).solveOutcome i v).solverIdle := by
      rw [← hstored]
      exact congrArg Host.Outcome.next (State.solveComplete_some flight some')
    have hrecord : (({ s with run := counted.run } : State).setRecord i solved).record i = solved :=
      State.record_setRecord ..
    have hlive : (({ s with run := counted.run } : State).setRecord i solved).live i = true :=
      (State.setRecord_live (s := { s with run := counted.run }) (r := solved) rfl i).trans live
    have hundecided : ((({ s with run := counted.run } : State).setRecord i solved).record i).disp = .undecided := by
      rw [hrecord]
      exact undecided
    have hbinned : ∀ d : Disposition, d.isBinOrRunoff = true →
        ((({ s with run := counted.run } : State).setRecord i solved).writeDisposition i d).solverIdle
        = counted.setRecord i { solved with disp := d } := by
      intro d out
      rw [State.writeDisposition_unplaced hlive (by rw [hundecided]; rfl) (by rw [hrecord]; exact unplaced) out, hrecord,
        State.setRecord_twice, State.solverIdle_empty (by exact empty)]
      rfl
    refine ⟨fun ungraded => ?ungraded, fun g graded => ⟨fun nowhere => ?unplaced, fun p row place => ?placed⟩⟩
    case ungraded => rw [hexec, State.solveOutcome_ungraded ungraded, hbinned _ rfl]
    case unplaced =>
      rw [hexec, State.solveOutcome_unplaced graded hundecided
        ((State.placeAtCompletion_of_pockets (s := s) (t := ({ s with run := counted.run } : State).setRecord i solved)
          rfl g v.len).trans nowhere), hbinned _ rfl]
      rfl
    case placed =>
      intro t
      have hclive : (counted.setRecord i solved).live i = true :=
        (State.setRecord_live (s := counted) (r := solved) rfl i).trans live
      have ht : t = _ := State.reserve_eq p row v.len hclive
      have hcrecord : (counted.setRecord i solved).record i = solved := State.record_setRecord ..
      refine ⟨?_, ?_, fun j hj => ?_, ?_, ?_, ?_, ?_⟩
      · rw [hexec, State.solveOutcome_placed graded hundecided
          ((State.placeAtCompletion_of_pockets (s := s)
            (t := ({ s with run := counted.run } : State).setRecord i solved) rfl g v.len).trans place)]
        have hempty : ((({ s with run := counted.run } : State).setRecord i solved).reserve i p row v.len).solver.queue
            = [] := by
          rw [State.reserve_eq p row v.len hlive]
          exact empty
        have hflown : t = _ := State.reserve_withFlight p row v.len hlive none
        rw [State.solverIdle_empty hempty, hflown]
        congr 2
        rw [State.reserve_eq p row v.len hlive]
        rfl
      · refine (State.reserve_record row v.len hclive).trans ?_
        rw [hcrecord]
        rfl
      · rw [ht]
        exact (State.record_setRecord_of_ne _ _ _ _ hj).trans (State.record_setRecord_of_ne _ _ _ _ hj)
      · rw [ht]
        rfl
      · rw [ht]
        rfl
      · rw [ht]
        rfl
      · rw [ht]
        rfl

end Sys2Proof.Machine
end

section
/-! Trends: the arithmetic of one update, and their range (R91, R95). -/

namespace Sys2Proof.Machine

open Sys2Proof.Config

/-! ### The exact quotient truncated toward zero (R95) -/

section
variable {x n : Int}

theorem natAbs_tdiv_lt (ne : x ≠ 0) (two : 2 ≤ n) : (x.tdiv n).natAbs < x.natAbs := by
  rw [Int.natAbs_tdiv]
  exact Nat.div_lt_self (Int.natAbs_pos.2 ne) (by omega)

theorem tdiv_eq_zero_of_natAbs_lt (small : (x.natAbs : Int) < n) : x.tdiv n = 0 := by
  rw [← Int.natAbs_eq_zero, Int.natAbs_tdiv]
  exact Nat.div_eq_of_lt (by omega)

end

theorem two_le_two_pow {k : Nat} (one : 1 ≤ k) : (2 : Int) ≤ 2 ^ k := by
  obtain ⟨m, rfl⟩ := Nat.exists_eq_add_of_le one
  have h : (1 : Int) ≤ 2 ^ m := one_le_pow₀ (by decide)
  rw [pow_add]
  omega

/-! ### One trend (R95) -/

section
variable {k : Nat} {t d : Int}

/-- A trend moves toward sixteen times the deviation from either side, and not beyond it. -/
theorem trendStep_rises (one : 1 ≤ k) (below : t ≤ 16 * d) : t ≤ trendStep k t d ∧ trendStep k t d ≤ 16 * d := by
  have htwo := two_le_two_pow one
  have hlow : 0 ≤ (16 * d - t).tdiv (2 ^ k) := Int.tdiv_nonneg (by omega) (by omega)
  have hhigh : (16 * d - t).tdiv (2 ^ k) ≤ 16 * d - t := Int.tdiv_le_self _ (by omega)
  unfold trendStep
  omega

theorem trendStep_neg : trendStep k (-t) (-d) = -trendStep k t d := by
  have h : 16 * -d - -t = -(16 * d - t) := by omega
  unfold trendStep
  rw [h, Int.neg_tdiv]
  omega

theorem trendStep_falls (one : 1 ≤ k) (above : 16 * d ≤ t) : 16 * d ≤ trendStep k t d ∧ trendStep k t d ≤ t := by
  have h := trendStep_rises (t := -t) (d := -d) one (by omega)
  rw [trendStep_neg] at h
  omega

theorem trendStep_natAbs (one : 1 ≤ k) (trend : t.natAbs ≤ 320000) (deviation : d.natAbs ≤ 20000) :
    (trendStep k t d).natAbs ≤ 320000 := by
  rcases le_total t (16 * d) with h | h
  · have := trendStep_rises one h
    omega
  · have := trendStep_falls one h
    omega

theorem trendStep_ne (one : 1 ≤ k) (ne : t ≠ 16 * d) : trendStep k t d ≠ 16 * d := by
  have h : ((16 * d - t).tdiv (2 ^ k)).natAbs < (16 * d - t).natAbs :=
    natAbs_tdiv_lt (by omega) (two_le_two_pow one)
  unfold trendStep
  intro reached
  rw [show (16 * d - t).tdiv (2 ^ k) = 16 * d - t by omega] at h
  exact lt_irrefl _ h

theorem trendStep_stays (small : (16 * d - t).natAbs < 2 ^ k) : trendStep k t d = t := by
  unfold trendStep
  rw [tdiv_eq_zero_of_natAbs_lt (by exact_mod_cast small), add_zero]

end

/-! ### The four trends of a check (R91, R95) -/

/-- The trends after a strip of four measured values has been tested. -/
def ProfileCheck.movedTrends (c : ProfileCheck) (v : Vector Nat 4) : Vector Int 4 :=
  Vector.ofFn (fun j => trendStep c.shift c.trends[j] ((min 20000 v[j] : Nat) - (c.dims[j].nominal : Int)))

/-- What `TrendsInRange` says, of the check alone. -/
structure ProfileCheck.InRange (c : ProfileCheck) : Prop where
  shift   : 1 ≤ c.shift ∧ c.shift ≤ 8
  nominal : ∀ j : Fin 4, c.dims[j].nominal ≤ 20000
  trends  : ∀ j : Fin 4, c.trends[j].natAbs ≤ 320000

theorem State.trendsInRange_iff (s : State) : s.TrendsInRange ↔ s.check.InRange :=
  ⟨fun ⟨h, k, l⟩ => ⟨h, k, l⟩, fun ⟨h, k, l⟩ => ⟨h, k, l⟩⟩

namespace ProfileCheck.InRange

theorem default : ({} : ProfileCheck).InRange := ⟨by decide, by decide, by decide⟩

section
variable {c c' : ProfileCheck} (h : c.InRange)

include h

/-- Only the divisor, the nominals and the trends count. -/
theorem congr (shift : c'.shift = c.shift) (dims : c'.dims = c.dims) (trends : c'.trends = c.trends) : c'.InRange := by
  obtain ⟨hs, hn, ht⟩ := h
  constructor
  · rw [shift]
    exact hs
  · rw [dims]
    exact hn
  · rw [trends]
    exact ht

theorem moved (v : Vector Nat 4) (shift : c'.shift = c.shift) (dims : c'.dims = c.dims)
    (trends : c'.trends = c.movedTrends v) : c'.InRange := by
  obtain ⟨hs, hn, ht⟩ := h
  constructor
  · rw [shift]
    exact hs
  · rw [dims]
    exact hn
  · intro j
    rw [trends]
    have hj : (c.movedTrends v)[j]
        = trendStep c.shift c.trends[j] ((min 20000 v[j] : Nat) - (c.dims[j].nominal : Int)) := by
      simp [movedTrends]
    have hnom := hn j
    rw [hj]
    refine trendStep_natAbs hs.1 (ht j) ?_
    omega

theorem zeroed (shift : c'.shift = c.shift) (dims : c'.dims = c.dims) (trends : c'.trends = Vector.replicate 4 0) :
    c'.InRange := by
  obtain ⟨hs, hn, ht⟩ := h
  constructor
  · rw [shift]
    exact hs
  · rw [dims]
    exact hn
  · intro j
    rw [trends]
    simp

end

end ProfileCheck.InRange

end Sys2Proof.Machine
end

section
/-! What the requests, the links and the resets do to the trends (R91, R95, R99, R199). -/

namespace Sys2Proof.Machine

open Sys2Proof.Config

/-- A request whose checks find no fault has passed each of them (R190). -/
theorem passed_of_firstFail {checks : List (Bool × Status)} (none' : firstFail checks = none) {b : Bool} {st : Status}
    (mem : (b, st) ∈ checks) : b = false := by
  induction checks with
  | nil => simp at mem
  | cons c cs ih =>
    obtain ⟨fails, st'⟩ := c
    cases fails with
    | true => simp [firstFail] at none'
    | false =>
      rcases List.mem_cons.1 mem with first | later
      · cases first
        rfl
      · exact ih none' later

namespace State

variable {s t u : State}

/-- The trends of `t` are those of `s`, and within their range when those are. -/
structure KeepsTrends (s t : State) : Prop where
  trends : t.check.trends = s.check.trends
  range  : s.check.InRange → t.check.InRange

/-- The trends of `t` are those of `s` or zero, and within their range when those of `s` are. -/
structure KeepsOrZeroesTrends (s t : State) : Prop where
  trends : t.check.trends = s.check.trends ∨ t.check.trends = Vector.replicate 4 0
  range  : s.check.InRange → t.check.InRange

theorem KeepsTrends.of_check (same : t.check = s.check) : s.KeepsTrends t :=
  ⟨by rw [same], fun h => by rwa [same]⟩

theorem KeepsTrends.orZeroes (h : s.KeepsTrends t) : s.KeepsOrZeroesTrends t := ⟨.inl h.trends, h.range⟩

theorem KeepsOrZeroesTrends.of_check (same : t.check = s.check) : s.KeepsOrZeroesTrends t :=
  (KeepsTrends.of_check same).orZeroes

theorem KeepsOrZeroesTrends.trans (h : s.KeepsOrZeroesTrends t) (k : t.KeepsOrZeroesTrends u) :
    s.KeepsOrZeroesTrends u where
  trends := k.trends.elim (fun e => h.trends.imp e.trans e.trans) .inr
  range := k.range ∘ h.range

theorem KeepsOrZeroesTrends.check (h : s.KeepsOrZeroesTrends t) (same : u.check = t.check) : s.KeepsOrZeroesTrends u :=
  h.trans (.of_check same)

/-! ### The two requests that change what counts (R91, R99) -/

theorem putProfile_keepsTrends {p : List Byte} (nominal : ∀ j : Fin 4, u16 p (dimAt j) ≤ 20000) (s : State) :
    s.KeepsTrends (s.putProfile p) := by
  have hcheck : (s.putProfile p).check = { s.check with
      enable := flag p 0
      hold := flag p 1
      shift := clamp 1 8 (u8 p 2)
      dims := Vector.ofFn (dimCfg p)
      state := (s.putProfile p).check.state } := by
    unfold putProfile
    rw [trendTest_check, syncProfileHold_check]
    rfl
  refine ⟨by rw [hcheck], fun h => ?_⟩
  rw [hcheck]
  constructor
  · dsimp only [clamp]
    omega
  · intro j
    have hj : (Vector.ofFn (dimCfg p))[j] = dimCfg p j := by simp
    dsimp only
    rw [hj]
    exact nominal j
  · exact h.trends

theorem takeSetProfile_keepsTrends (p : List Byte) (s : State) : s.KeepsTrends (s.takeSetProfile p).1 := by
  unfold takeSetProfile handle
  split
  · exact .of_check rfl
  · split
    · exact .of_check rfl
    · next pass =>
      refine putProfile_keepsTrends (fun j => ?_) s
      have hinside := passed_of_firstFail pass
        (List.mem_append_right _ (List.mem_map_of_mem (f := fun i : Fin 4 => (outside 0 20000 (u16 p (dimAt i)), Status.badValue))
          (List.mem_finRange j)))
      simpa [outside] using hinside

theorem clearTrends_trends (s : State) : s.clearTrends.check.trends = Vector.replicate 4 0 := by
  unfold clearTrends
  rw [syncProfileHold_check, moveTrend_check]
  rfl

theorem clearTrends_zeroes (s : State) : s.KeepsOrZeroesTrends s.clearTrends where
  trends := .inr (clearTrends_trends s)
  range h := by
    refine h.zeroed ?_ ?_ (clearTrends_trends s) <;>
    · unfold clearTrends
      rw [syncProfileHold_check, moveTrend_check]
      rfl

theorem takeClearTrend_refused {p : List Byte} (h : p ≠ []) (s : State) : (s.takeClearTrend p).1 = s := by
  unfold takeClearTrend handle
  rw [if_pos (by simpa using h)]
  rfl

/-! ### The answer to a request -/

theorem takeClearCounts_keepsTrends (p : List Byte) (s : State) : s.KeepsTrends (s.takeClearCounts p).1 := by
  unfold takeClearCounts
  refine handle_keeps (P := s.KeepsTrends) (.of_check rfl) ⟨rfl, fun h => h.congr rfl rfl rfl⟩

theorem answer_other {f : Frame} (kind : f.kind.toNat ≠ 0x28) (s : State) : s.KeepsTrends (s.answer f).1 := by
  unfold answer
  split
  case h_10 => exact takeSetProfile_keepsTrends _ s
  case h_30 h => exact absurd h kind
  case h_36 => exact takeClearCounts_keepsTrends _ s
  case h_38 => exact .of_check rfl
  all_goals exact .of_check (by simp)

/-- Only CLEAR_TREND with no payload zeroes the trends (R99). -/
theorem answer_keepsTrends {f : Frame} (h : f.kind ≠ 0x28 ∨ f.payload ≠ []) (s : State) : s.KeepsTrends (s.answer f).1 := by
  by_cases kind : f.kind = 0x28
  · have hanswer : s.answer f = s.takeClearTrend f.payload := by
      unfold answer
      rw [kind]
      rfl
    rw [hanswer, takeClearTrend_refused (h.resolve_left (not_not_intro kind))]
    exact .of_check rfl
  · exact answer_other (mt (byte_eq_iff 0x28 (by decide)).2 kind) s

theorem answer_keepsOrZeroes (f : Frame) (s : State) : s.KeepsOrZeroesTrends (s.answer f).1 := by
  by_cases h : f.kind = 0x28 ∧ f.payload = []
  · obtain ⟨kind, id, payload⟩ := f
    obtain ⟨hkind, hpayload⟩ := h
    cases hkind
    cases hpayload
    exact clearTrends_zeroes s
  · exact (answer_keepsTrends (by tauto) s).orZeroes

/-! ### The request queue (R188, R189) -/

/-- An arriving frame leaves the check, or is a request that is answered at once. -/
theorem hostArrive_check (f : Frame) (s : State) : (s.hostArrive f).check = s.check
    ∨ ∃ u : State, u.check = s.check ∧ (s.hostArrive f).check = (u.answer f).1.check := by
  by_cases request : isRequest f = true
  case neg =>
    rw [hostArrive_noRequest (by simpa using request)]
    exact .inl rfl
  case pos =>
    by_cases empty : s.host.requests = []
    · refine .inr ⟨s.arrived f, rfl, ?_⟩
      rw [hostArrive_empty request empty, ← handReply_eq, handReply_check]
    · refine .inl ?_
      by_cases room : s.host.requests.length < 4
      · rw [hostArrive_behind request empty room]
      · rw [hostArrive_dropped request (by omega)]

theorem hostArrive_keepsTrends {f : Frame} (h : f.kind ≠ 0x28 ∨ f.payload ≠ []) (s : State) :
    s.KeepsTrends (s.hostArrive f) := by
  obtain same | ⟨u, hu, answered⟩ := hostArrive_check f s
  · exact .of_check same
  · obtain ⟨trends, range⟩ := answer_keepsTrends h u
    rw [← answered, hu] at trends range
    exact ⟨trends, range⟩

theorem hostArrive_keepsOrZeroes (f : Frame) (s : State) : s.KeepsOrZeroesTrends (s.hostArrive f) := by
  obtain same | ⟨u, hu, answered⟩ := hostArrive_check f s
  · exact .of_check same
  · obtain ⟨trends, range⟩ := answer_keepsOrZeroes f u
    rw [← answered, hu] at trends range
    exact ⟨trends, range⟩

theorem takeHead_keepsOrZeroes (s : State) : s.KeepsOrZeroesTrends s.takeHead := by
  unfold takeHead
  split
  · exact .of_check rfl
  · exact (answer_keepsOrZeroes _ s).check (handReply_check ..)

@[simp] theorem txIdle_check (s : State) : s.txIdle.check = s.check := by simp [txIdle]

@[simp] theorem reportSent_check (s : State) : s.reportSent.check = s.check := by
  unfold reportSent
  split <;> simp

/-! ### The resets (R19, R199) -/

theorem softReset_check (s : State) : s.softReset.check = s.check.softReset := softReset_block s fun _ _ => rfl

theorem softReset_zeroes (s : State) : s.KeepsOrZeroesTrends s.softReset := by
  have htrends : s.softReset.check.trends = Vector.replicate 4 0 := by
    rw [softReset_check]
    rfl
  refine ⟨.inr htrends, fun h => h.zeroed ?_ ?_ htrends⟩ <;>
  · rw [softReset_check]
    rfl

theorem powerOn_zeroes (found : InputPins) (s : State) : s.KeepsOrZeroesTrends (s.powerOn found) :=
  ⟨.inr rfl, fun _ => .default⟩

theorem replySent_keepsOrZeroes (s : State) : s.KeepsOrZeroesTrends s.replySent := by
  unfold replySent
  split
  · split
    · exact softReset_zeroes s
    · have hleft : s.KeepsOrZeroesTrends (s.modHost (fun h => { h with requests := h.requests.tail })) := .of_check rfl
      exact (hleft.trans (takeHead_keepsOrZeroes _)).check (txIdle_check _)
  · exact .of_check rfl

/-! ### Bytes on the links (R187) -/

@[simp] theorem setReceiver_check (link : Link) (r : Receiver) (s : State) : (s.setReceiver link r).check = s.check := by
  cases link <;> rfl

@[simp] theorem gap_check (link : Link) (s : State) : (s.gap link).check = s.check := by
  unfold gap
  split
  · rfl
  · simp

theorem frameArrives_check {link : Link} (noHost : link ≠ .host) (f : Frame) (s : State) :
    (s.frameArrives link f).check = s.check := by
  cases link with
  | host => exact absurd rfl noHost
  | scan => exact (intakeOffer_check f s.scanHunts).trans (scanHunts_check s)
  | printer =>
    unfold frameArrives printerFrame
    dsimp only
    repeat' split
    all_goals simp

theorem takeBytes_check {link : Link} (noHost : link ≠ .host) (bytes : List LineByte) (s : State) :
    (s.takeBytes link bytes).check = s.check :=
  takeBytes_induction (P := fun u => u.check = s.check) (fun u r h => (setReceiver_check link r u).trans h)
    (fun u f h => (frameArrives_check noHost f u).trans h) (fun u h' h => (linkError_check link h' u).trans h) bytes s rfl

theorem takeBytes_keepsOrZeroes (link : Link) (bytes : List LineByte) (s : State) :
    s.KeepsOrZeroesTrends (s.takeBytes link bytes) := by
  by_cases noHost : link ≠ .host
  · exact .of_check (takeBytes_check noHost bytes s)
  · cases not_not.1 noHost
    exact takeBytes_induction (P := s.KeepsOrZeroesTrends) (fun u r h => h.check (setReceiver_check .host r u))
      (fun u f h => h.trans (hostArrive_keepsOrZeroes f u)) (fun u h' h => h.check (linkError_check .host h' u)) bytes s
      (.of_check rfl)

end State

end Sys2Proof.Machine
end

section
/-! The trends over every row (R91, R95). -/

namespace Sys2Proof.Machine

open Sys2Proof.Config

namespace State

variable {s t : State}

/-! ### A strip tested (R95) -/

/-- The trends of `t` are those of `s` as they were, or moved by four measured values. -/
structure KeepsOrMovesTrends (s t : State) : Prop where
  trends : t.check.trends = s.check.trends ∨ ∃ v, t.check.trends = s.check.movedTrends v
  range  : s.check.InRange → t.check.InRange

theorem KeepsOrMovesTrends.of_check {t : State} (same : t.check = s.check) : s.KeepsOrMovesTrends t :=
  ⟨.inl (by rw [same]), fun h => by rwa [same]⟩

theorem KeepsOrMovesTrends.check {u : State} (h : s.KeepsOrMovesTrends t) (same : u.check = t.check) :
    s.KeepsOrMovesTrends u := by
  obtain ⟨trends, range⟩ := h
  rw [← same] at trends range
  exact ⟨trends, range⟩

/-- A strip's test moves the trends, whether it passes or fails; of the check it changes besides the fail count and the
trend state. -/
theorem takeProfileValues_check {s : State} (i : Fin 64) (v : Vector Nat 4) (on : s.check.enable = true) :
    ∃ fails state, (s.takeProfileValues i v).check = { s.check with
      trends := s.check.movedTrends v
      fails := fails
      state := state } := by
  rw [takeProfileValues_on i v on rfl, trendTest_check]
  generalize hd : Vector.ofFn (fun j : Fin 4 => (min 20000 v[j] : Nat) - (s.check.dims[j].nominal : Int)) = d
  have hmoved : Vector.ofFn (fun j : Fin 4 => trendStep s.check.shift s.check.trends[j] d[j]) = s.check.movedTrends v := by
    rw [← hd, ProfileCheck.movedTrends]
    simp
  have hjudged : (s.judgeStrip i d).check = { s.check with fails := (s.judgeStrip i d).check.fails } := by
    rw [judgeStrip_check]
    split <;> rfl
  refine ⟨(s.judgeStrip i d).check.fails, ((s.judgeStrip i d).updateTrends d).check.nextState, ?_⟩
  rw [← hmoved]
  generalize ((s.judgeStrip i d).updateTrends d).check.nextState = new
  rw [updateTrends, modCheck]
  dsimp only
  rw [hjudged]

theorem takeProfileValues_trends (i : Fin 64) (v : Vector Nat 4) (on : s.check.enable = true) :
    (s.takeProfileValues i v).check.trends = s.check.movedTrends v := by
  obtain ⟨fails, state, hcheck⟩ := takeProfileValues_check i v on
  rw [hcheck]

theorem takeProfileValues_keepsOrMoves (i : Fin 64) (v : Vector Nat 4) (s : State) :
    s.KeepsOrMovesTrends (s.takeProfileValues i v) := by
  by_cases on : s.check.enable = true
  · obtain ⟨fails, state, hcheck⟩ := takeProfileValues_check i v on
    refine ⟨.inr ⟨v, by rw [hcheck]⟩, fun h => ?_⟩
    rw [hcheck]
    exact h.moved v rfl rfl rfl
  · refine .of_check ?_
    unfold takeProfileValues
    rw [if_neg on, writeRecord_check]

theorem takeProfile_keepsOrMoves (f : Frame) (s : State) : s.KeepsOrMovesTrends (s.takeProfile f) := by
  unfold takeProfile
  split
  · exact .of_check (malformed_check f s)
  next tag v _ =>
    split
    · exact .of_check (unknownTag_check .profile s)
    next i _ =>
      split
      · exact .of_check (lateFrame_check .profile s)
      · split
        · exact .of_check (by simp)
        · exact (takeProfileValues_keepsOrMoves i v s).check (headFrame_check ..)

/-- A row of the intake queue deals with the frame at its head, or leaves the check. -/
theorem fittingFrame_check (deal : Frame → State → State) (test : Frame → Bool) (s : State) :
    (if s.headFits test then s.takeFrame deal else s).check = s.check
    ∨ ∃ f u, u.check = s.check ∧ (if s.headFits test then s.takeFrame deal else s) = deal f u := by
  split
  · unfold takeFrame
    split
    · exact .inl rfl
    next f rest _ =>
      dsimp only
      split
      · exact .inr ⟨f, s.modScan (fun c => { c with queue := rest }), rfl, rfl⟩
      · exact .inl rfl
  · exact .inl rfl

theorem fittingFrame_keepsTrends {deal : Frame → State → State} (test : Frame → Bool)
    (deals : ∀ (f : Frame) (u : State), (deal f u).check = u.check) :
    s.KeepsTrends (if s.headFits test then s.takeFrame deal else s) := by
  obtain same | ⟨f, u, hu, dealt⟩ := fittingFrame_check deal test s
  · exact .of_check same
  · exact .of_check (by rw [dealt, deals, hu])

theorem profileRow_keepsOrMoves (test : Frame → Bool) (s : State) :
    s.KeepsOrMovesTrends (if s.headFits test then s.takeFrame takeProfile else s) := by
  obtain same | ⟨f, u, hu, dealt⟩ := fittingFrame_check takeProfile test s
  · exact .of_check same
  · rw [dealt]
    obtain ⟨trends, range⟩ := takeProfile_keepsOrMoves f u
    rw [hu] at trends range
    exact ⟨trends, range⟩

end State

open State

/-! ### Every row -/

/-- A row that is a reset, or can take a waiting or an arriving CLEAR_TREND. -/
def MayZeroTrends (c : Instr) : Prop := match c with
  | .powerOnReset _ => True
  | .softReset => True
  | .clearTrend _ p => p = []
  | .hostFrameReceived kind _ p => kind = 0x28 ∧ p = []
  | .unknownKind kind _ p => kind = 0x28 ∧ p = []
  | .frameError link _ => link = .host
  | .linkGapTimeout burst => burst.link = .host
  | .replySent => True
  | _ => False

/-- What the rows other than PROFILE do to the trends. -/
def State.TrendsFollow (s : State) (c : Instr) (t : State) : Prop :=
  s.KeepsTrends t ∨ MayZeroTrends c ∧ s.KeepsOrZeroesTrends t

/-- The rows that bring a frame from the host. -/
theorem hostRow_trends {c : Instr} {f : Frame} (s : State) (named : f.kind = 0x28 ∧ f.payload = [] → MayZeroTrends c) :
    s.TrendsFollow c (s.hostArrive f) := by
  by_cases h : f.kind = 0x28 ∧ f.payload = []
  · exact .inr ⟨named h, hostArrive_keepsOrZeroes f s⟩
  · exact .inl (hostArrive_keepsTrends (by tauto) s)

theorem hostRow_keepsTrends {kind id : Byte} {p : List Byte} (s : State) (other : kind ≠ 0x28) :
    s.KeepsTrends (s.hostArrive ⟨kind, id, p⟩) := hostArrive_keepsTrends (.inl other) s

theorem exec_trends (c : Instr) (s : State) (noProfile : c ≠ .profile) : ∃ t, exec c s = .next t ∧ s.TrendsFollow c t := by
  cases c with
  | powerOnReset found => exact ⟨_, rfl, .inr ⟨trivial, powerOn_zeroes found s⟩⟩
  | softReset => exact ⟨_, rfl, .inr ⟨trivial, softReset_zeroes s⟩⟩
  | rawCount x phase => exact ⟨_, rfl, .inl (.of_check (rawCount_check ..))⟩
  | eyeInputChange x blocked => exact ⟨_, rfl, .inl (.of_check (eyeInput_check ..))⟩
  | scanStartSent => exact ⟨_, rfl, .inl (.of_check rfl)⟩
  | scanFrameReceived kind id p =>
    exact ⟨_, rfl, .inl (.of_check ((intakeOffer_check _ s.scanHunts).trans (scanHunts_check s)))⟩
  | defects => exact ⟨_, rfl, .inl (fittingFrame_keepsTrends _ takeDefects_check)⟩
  | scanEnd => exact ⟨_, rfl, .inl (fittingFrame_keepsTrends _ takeScanEnd_check)⟩
  | profile => exact absurd rfl noProfile
  | malformedScanFrame => exact ⟨_, rfl, .inl (fittingFrame_keepsTrends _ malformed_check)⟩
  | solveComplete => exact ⟨_, rfl, .inl (.of_check (solveComplete_check s))⟩
  | pulseWidthExpiry l => exact ⟨_, rfl, .inl (.of_check (pulseEnds_check l s))⟩
  | pullInExpiry l => exact ⟨_, rfl, .inl (.of_check (pullInEnds_check l s))⟩
  | chopPeriod l => exact ⟨_, rfl, .inl (.of_check (chopEnds_check l s))⟩
  | deadTimeExpiry p => exact ⟨_, rfl, .inl (.of_check (deadTimeEnds_check p s))⟩
  | sawRecoveryExpiry => exact ⟨_, rfl, .inl (.of_check (sawReady_check s))⟩
  | clearEdge p event =>
    cases event with
    | takes active => exact ⟨_, rfl, .inl (.of_check (clearInput_check p active s))⟩
    | held => exact ⟨_, rfl, .inl (.of_check (clearHeld_check p s))⟩
  | paceInterval => exact ⟨_, rfl, .inl (.of_check (paceEnds_check s))⟩
  | labelTransmissionComplete => exact ⟨_, rfl, .inl (.of_check (transmissionEnds_check s))⟩
  | ack serial => exact ⟨_, rfl, .inl (.of_check ((takeAck_check _ s.printerHunts).trans (printerHunts_check s)))⟩
  | nak serial code => exact ⟨_, rfl, .inl (.of_check ((takeNak_check _ _ s.printerHunts).trans (printerHunts_check s)))⟩
  | ackTimeout => exact ⟨_, rfl, .inl (.of_check (ackExpires_check s))⟩
  | readyChange asserted => exact ⟨_, rfl, .inl (.of_check (readyInput_check asserted s))⟩
  | stopChange asserted => exact ⟨_, rfl, .inl (.of_check (stopInput_check asserted s))⟩
  | printerMalformedFrame kind id p =>
    refine ⟨_, rfl, .inl (.of_check ?_)⟩
    split
    · rfl
    · exact printerError_check s
  | frameError link bytes =>
    refine ⟨_, rfl, ?_⟩
    by_cases host : link = .host
    · exact .inr ⟨host, takeBytes_keepsOrZeroes link bytes s⟩
    · exact .inl (.of_check (takeBytes_check host bytes s))
  | linkGapTimeout burst =>
    refine ⟨_, rfl, ?_⟩
    by_cases host : burst.link = .host
    · exact .inr ⟨host, (takeBytes_keepsOrZeroes _ _ s).check (gap_check ..)⟩
    · exact .inl (.of_check ((gap_check ..).trans (takeBytes_check host _ s)))
  | replySent => exact ⟨_, rfl, .inr ⟨trivial, replySent_keepsOrZeroes s⟩⟩
  | reportSent => exact ⟨_, rfl, .inl (.of_check (reportSent_check s))⟩
  | bothPhasesChange x => exact ⟨_, rfl, .inl (.of_check (by simp))⟩
  | hostFrameReceived | unknownKind => exact ⟨_, rfl, hostRow_trends s id⟩
  | clearTrend => exact ⟨_, rfl, hostRow_trends s And.right⟩
  | identify | setSection | setOutput | armPair | setTrim | setGrade | setRules | setPrices | commitBank | setProfile
  | setPocket | setLine | setLabel | setReports | startLine | stopLine | haltLine | clearHalt | feedHold | reset
  | testOutputLevel | testOutputPulse | testOutputTarget | closePocket | holdPocket | releasePocket | clearPocket
  | pauseLabels | resumeLabels | skipLabel | reprintLabel | getState | getStrip | getPocket | getLabels | getCounts
  | clearCounts | getList => exact ⟨_, rfl, .inl (hostRow_keepsTrends s (by decide))⟩

theorem exec_trends_of_next {c : Instr} {s t : State} (h : exec c s = .next t) (noProfile : c ≠ .profile) :
    s.TrendsFollow c t := by
  obtain ⟨u, hu, hfollow⟩ := exec_trends c s noProfile
  rw [h, Host.Outcome.next.injEq] at hu
  exact hu ▸ hfollow

theorem exec_profile_trends {s t : State} (h : exec .profile s = .next t) : s.KeepsOrMovesTrends t := by
  cases h
  exact profileRow_keepsOrMoves _ s

/-- Every row keeps the trends, with the divisor and the nominals, within their range. -/
theorem exec_inRange {c : Instr} {s t : State} (h : exec c s = .next t) (range : s.check.InRange) : t.check.InRange := by
  by_cases row : c = .profile
  · subst row
    exact (exec_profile_trends h).range range
  · obtain kept | ⟨-, zeroed⟩ := exec_trends_of_next h row
    · exact kept.range range
    · exact zeroed.range range

theorem step_inRange {s t : State} (range : s.check.InRange) (hstep : step s = .next t) : t.check.InRange :=
  step_induction (P := fun u => u.check.InRange) range hstep id (fun _ => id) fun _ _ _ hu he => exec_inRange he hu

/-- Settles O29: a strip's test moves the trends, the two resets and CLEAR_TREND zero them, and the other rows leave the
check, or answer a request that may be CLEAR_TREND. -/
theorem trendUpdates : Obligations.TrendUpdates := by
  refine ⟨fun s i v on => takeProfileValues_trends i v on, fun k t d one _ => ?arithmetic,
    fun s t h => (exec_profile_trends h).trends, fun s t found h => ?resets, fun s _ => clearTrends_trends s,
    fun s f h => (answer_keepsTrends h s).trends, fun s _ _ => by rw [enterHalt_check],
    fun s => by rw [drainTest_check], fun c s t h noProfile => ?rows, ?initial, fun s t range hstep => ?step⟩
  case arithmetic =>
    exact ⟨trendStep_rises one, trendStep_falls one, trendStep_natAbs one, trendStep_ne one, trendStep_stays⟩
  case resets =>
    obtain power | soft := h
    · cases power
      rfl
    · cases soft
      rw [softReset_check]
      rfl
  case rows =>
    obtain kept | ⟨may, zeroed⟩ := exec_trends_of_next h noProfile
    · exact ⟨fun _ => kept.trends, .inl kept.trends⟩
    · exact ⟨fun no => absurd may no, zeroed.trends⟩
  case initial => exact (trendsInRange_iff _).2 .default
  case step => exact (trendsInRange_iff t).2 (step_inRange ((trendsInRange_iff s).1 range) hstep)

end Sys2Proof.Machine
end
